-- ==== Sys2Proof/Word.lean ====
section
/-! DEFINITION. Word types of the block (spec/00_scope.md R9, R10): bytes, the 3-bit code, and durations. -/

namespace Sys2Proof

/-- A byte, bit 0 least significant (R10).  Register addresses, payloads and checksums are one byte each (R9). -/
abbrev Byte := BitVec 8

/-- The 3-bit `FAIL` code (R27, R225). -/
abbrev FailCode := BitVec 3

/-- A delay.  Its unit and width are open (R31, decision D21); log entry 6. -/
abbrev Duration := Nat

end Sys2Proof
end

