-- ==== Sys2Proof/Config.lean ====
section
/-! DEFINITION. What is fixed for the machine (the configuration record of spec/00_scope.md R7 and R8), what its
environment may answer (a draw, R11), and the free values, which have no body. -/

namespace Sys2Proof

/-- The parity of the serial line (log entry 20: the choices are presumed). -/
inductive Parity where
  | none | odd | even | mark | space
  deriving DecidableEq, Repr, Inhabited

/-- The stop bits of the serial line (log entry 20: the choices are presumed). -/
inductive StopBits where
  | one | oneAndHalf | two
  deriving DecidableEq, Repr, Inhabited

/-- The serial line of the external transport (R8, 43_register_exchange.md R174).  No rule of the block reads it. -/
structure SerialLine where
  /-- 9600 baud. -/
  baud : Nat
  /-- The request-to-send line is asserted. -/
  rtsAsserted : Bool
  /-- The data-terminal-ready line is asserted. -/
  dtrAsserted : Bool
  /-- 8 data bits. -/
  dataBits : Nat
  /-- An open parameter (93_implementation_defined.md U1). -/
  parity : Parity
  /-- An open parameter (U1). -/
  stopBits : StopBits
  deriving DecidableEq, Repr

/-- The configuration record of R7 and R8 (10_state.md R30: read-only, written by no operation).
It is held in the state, so that a statement about every state holds for every value of the open
parameters (R126); the normative values are `Sys2Proof.Machine.specConfig`. -/
structure Config where
  /-- `MARKER`, byte 0 of a response frame. -/
  marker : Byte
  /-- `RSP_LEN_FIELD`, byte 1 of a response frame. -/
  rspLenField : Byte
  /-- `RSP_STATUS_OK`, byte 2 of a response frame. -/
  rspStatusOk : Byte
  /-- `RSP_RESERVED`, byte 3 of a response frame. -/
  rspReserved : Byte
  /-- `RSP_FRAME_BYTES`, the length of a response frame. -/
  rspFrameBytes : Nat
  /-- `RSP_PAYLOAD_INDEX`, the index of the payload in a response frame. -/
  rspPayloadIndex : Nat
  /-- `RSP_CKS_INDEX`, the index of the checksum in a response frame. -/
  rspCksIndex : Nat
  /-- `CMD_FRAME_BYTES`, the length of a command frame. -/
  cmdFrameBytes : Nat
  /-- `CKS_MODULUS`, the modulus of the truncated sum. -/
  cksModulus : Nat
  /-- `CMD_MARKER`, byte 0 of a command frame (decision D3). -/
  cmdMarker : Byte
  /-- `CMD_LEN_FIELD`, byte 1 of a command frame: an open parameter (decision D4). -/
  cmdLenField : Byte
  /-- `STATUS_REG_OK`, the value of the module's status register that means success; only the consumers use it. -/
  statusRegOk : Byte
  /-- `T_SETTLE_DEFAULT`, the reset value of `T_SETTLE`: an open parameter (decision D21). -/
  tSettleDefault : Duration
  /-- `T_OPEN`, the delay of a real open: an open parameter (decision D21). -/
  tOpen : Duration
  /-- `T_CLOSE`, the delay of a real close: an open parameter (decision D21). -/
  tClose : Duration
  /-- The serial line of the transport. -/
  serial : SerialLine
  deriving DecidableEq, Repr

/-- The five sizes have the values of R7 (R80: "exactly 4 bytes", "exactly 6 bytes").  No operation writes the
configuration, so that this holds for ever once it holds; after reset it does. -/
abbrev Config.SpecSizes (c : Config) : Prop :=
  c.rspFrameBytes = 6 ∧ c.rspPayloadIndex = 4 ∧ c.rspCksIndex = 5 ∧ c.cmdFrameBytes = 4 ∧ c.cksModulus = 256

/-- What one `read_available()` does.  Nothing constrains the bytes it returns (43_register_exchange.md R161). -/
inductive ReadAnswer where
  /-- It delivers the whole receive queue, in arrival order, and empties it (R173). -/
  | queued
  /-- It returns any other byte sequence and leaves `left` in the queue (R161: the block assumes nothing). -/
  | other (bytes left : List Byte)
  /-- It fails (a TransportError, R163) and leaves `left` in the queue. -/
  | error (left : List Byte)
  deriving DecidableEq, Repr, Inhabited

/-- The environment's answers to the transport calls of ONE operation: a draw (R11, R37).  A component that the
operation does not come to use has no effect. -/
structure Draw where
  /-- Does `transport.open()` succeed? -/
  openOk : Bool
  /-- Does `write` succeed? -/
  writeOk : Bool
  /-- Bytes that reached the receive queue since the previous draw and before this operation's first transport call (R20, R167). -/
  early : List Byte
  /-- Bytes that reach the receive queue between the write and the read (R167). -/
  late : List Byte
  /-- What the read does. -/
  read : ReadAnswer
  deriving DecidableEq, Repr, Inhabited

/-- Free value: the `n`-th answer of the environment where the state lists none (log entry 3).  No body: no claim can
rest on what it is. -/
opaque Config.freeDraw : Nat → Draw

/-- Free value: the receive queue at reset, "unspecified: any bytes" (10_state.md R39; log entry 7). -/
opaque Config.freeQueue : List Byte

/-- Free value: the open parameter `T_SETTLE_DEFAULT` (R8; log entry 6). -/
opaque Config.freeSettleDefault : Duration

/-- Free value: the open parameter `T_OPEN` (R8; log entry 6). -/
opaque Config.freeOpenDelay : Duration

/-- Free value: the open parameter `T_CLOSE` (R8; log entry 6). -/
opaque Config.freeCloseDelay : Duration

/-- Free value: the parity of the serial line, an open parameter (R8, U1; log entry 20). -/
opaque Config.freeParity : Parity

/-- Free value: the stop bits of the serial line, an open parameter (R8, U1; log entry 20). -/
opaque Config.freeStopBits : StopBits

end Sys2Proof
end

