-- ==== Sys2Proof/Machine/Parameters.lean ====
section
/-! DEFINITION. The normative values of the configuration record (spec/00_scope.md R7, R8). -/

namespace Sys2Proof.Machine

/-- `RXCNT_SAT`, the value at which the received-byte counter saturates (R8, decision D9). -/
abbrev rxcntSat : Nat := 7

/-- "9600 baud, request-to-send and data-terminal-ready lines asserted, 8 data bits" (43_register_exchange.md R174); parity
and stop bits are free values (log entry 20). -/
def serialLine : SerialLine where
  baud := 9600
  rtsAsserted := true
  dtrAsserted := true
  dataBits := 8
  parity := Config.freeParity
  stopBits := Config.freeStopBits

/-- The configuration with DOC0's literals (R7, decision D2), `CMD_MARKER` = 0x51 (decision D3) and the spec's default
0x01 for the open `CMD_LEN_FIELD` (decision D4; log entry 5); the three delays are free values (log entry 6). -/
def specConfig : Config where
  marker := 0x51
  rspLenField := 0x03
  rspStatusOk := 0x06
  rspReserved := 0x00
  rspFrameBytes := 6
  rspPayloadIndex := 4
  rspCksIndex := 5
  cmdFrameBytes := 4
  cksModulus := 256
  cmdMarker := 0x51
  cmdLenField := 0x01
  statusRegOk := 0x00
  tSettleDefault := Config.freeSettleDefault
  tOpen := Config.freeOpenDelay
  tClose := Config.freeCloseDelay
  serial := serialLine

end Sys2Proof.Machine
end

