-- ==== Sys2Proof/Machine/Checksum.lean ====
section
/-! DEFINITION. The checksum unit (spec/40_checksum.md): the only arithmetic of the block. -/

namespace Sys2Proof.Machine

/-- The exact sum of the bytes, each read as an unsigned number (R110). -/
def byteSum (s : List Byte) : Nat :=
  (s.map BitVec.toNat).sum

/-- The sum of the bytes, truncated to a modulus (00_scope.md R7, `CKS_MODULUS`). -/
def truncatedSum (modulus : Nat) (s : List Byte) : Byte :=
  BitVec.ofNat 8 (byteSum s % modulus)

/-- `sum8(s)`: the truncated (modulo-256) sum of the bytes of `s` (R110); the carry is discarded (R29, R111) and the
empty sum is 0 (R112). -/
def sum8 (s : List Byte) : Byte :=
  truncatedSum 256 s

end Sys2Proof.Machine
end

