-- ==== Sys2Proof/Machine/Operands.lean ====
section
/-! DEFINITION. The operand forms: how a register address becomes a command frame and how a response frame carries a
payload (spec/30_encoding.md R81, R83, R87; spec/41_command_encoder.md R120, R123).  The sizes are the configuration's
(spec/00_scope.md R7). -/

namespace Sys2Proof.Machine

/-- The checksum a frame must carry over the bytes before it (R87): their sum modulo `CKS_MODULUS`. -/
def frameChecksum (c : Config) (s : List Byte) : Byte :=
  truncatedSum c.cksModulus s

/-- `CMD_FRAME_BYTES` bytes: the fields that stand before the checksum, and their checksum (R81, R87). -/
def sealCommand (c : Config) (fields : List Byte) : List Byte :=
  let body := fields.take (c.cmdFrameBytes - 1)
  body ++ [frameChecksum c body]

/-- The command frame for register address `a` (R120): marker, length byte, address, checksum of the three. -/
def commandFrame (c : Config) (a : Byte) : List Byte :=
  sealCommand c [c.cmdMarker, c.cmdLenField, a]

/-- The four fixed fields of a response frame (R83). -/
def responseHeader (c : Config) : List Byte :=
  [c.marker, c.rspLenField, c.rspStatusOk, c.rspReserved]

/-- The bytes of a structurally correct response frame before its checksum: the payload stands at `RSP_PAYLOAD_INDEX` and
the checksum at `RSP_CKS_INDEX` (R83). -/
def responseBody (c : Config) (p : Byte) : List Byte :=
  ((responseHeader c).take c.rspPayloadIndex ++ [p]).take c.rspCksIndex

/-- The bytes of a structurally correct response frame with payload `p` and checksum byte `k` (R83). -/
def responseBytes (c : Config) (p k : Byte) : List Byte :=
  (responseBody c p ++ [k]).take c.rspFrameBytes

/-- The checksum byte a response frame with payload `p` must carry (R83, R117). -/
def responseChecksum (c : Config) (p : Byte) : Byte :=
  frameChecksum c (responseBody c p)

/-- The "ideal" response for payload `p` (42_response_validator.md R135). -/
def idealResponse (c : Config) (p : Byte) : List Byte :=
  responseBytes c p (responseChecksum c p)

/-- The number of the first of rules 1 to 5 that a capture fails, if it fails one (42_response_validator.md R130); a
capture that fails none is structurally correct (R92).  The length bytes are compared, not interpreted (R86). -/
def structuralFailure (c : Config) (s : List Byte) : Option FailCode :=
  if s.length ≠ c.rspFrameBytes then some 1
  else if s[0]? ≠ some c.marker then some 2
  else if s[1]? ≠ some c.rspLenField then some 3
  else if s[2]? ≠ some c.rspStatusOk then some 4
  else if s[3]? ≠ some c.rspReserved then some 5
  else none

end Sys2Proof.Machine
end

