-- ==== Sys2Proof/Syntax.lean ====
section
/-! DEFINITION. The operations of the block, one constructor per row of spec/opcode_table.json, and the port words
that carry them (spec/30_encoding.md R81, R83, R88, R89). -/

namespace Sys2Proof

/-- One constructor per row of the opcode table, in the table's order.  An operation whose `OPERAND` bits are ignored
(R88) has no argument. -/
inductive Instr where
  /-- `CMD_FRAME`: the command frame `CMD_MARKER len addr cks` is put on the wire, block to module (format `CF`, R81). -/
  | cmdFrame (len addr cks : Byte)
  /-- `RSP_FRAME`: a response frame `51 03 06 00 payload cks` on the wire, module to block (format `RF`, R83). -/
  | rspFrame (payload cks : Byte)
  /-- `RX_CLEAR` (R140). -/
  | rxClear
  /-- `RX_PUSH b` (R141). -/
  | rxPush (b : Byte)
  /-- `VALIDATE` (R143). -/
  | validate
  /-- `ENCODE a` (R120). -/
  | encode (a : Byte)
  /-- `QUERY a` (R160). -/
  | query (a : Byte)
  /-- `OPEN` (R170). -/
  | openT
  /-- `CLOSE` (R171). -/
  | closeT
  /-- `SET_SETTLE d` (R176). -/
  | setSettle (d : Duration)
  /-- `GET_SETTLE` (R177). -/
  | getSettle
  deriving DecidableEq, Repr

/-- The four formats (30_encoding.md sections 1 and 3). -/
inductive Format where
  | cf
  | rf
  | hop
  | cfg
  deriving DecidableEq, Repr

/-- The format column of the opcode table. -/
def Instr.format : Instr → Format
  | .cmdFrame _ _ _ => .cf
  | .rspFrame _ _ => .rf
  | .rxClear => .hop
  | .rxPush _ => .hop
  | .validate => .hop
  | .encode _ => .hop
  | .query _ => .hop
  | .openT => .hop
  | .closeT => .hop
  | .setSettle _ => .cfg
  | .getSettle => .cfg

/-- A word of one of the four formats, on whichever port of the block it stands, input or output (10_state.md R38).  Frames
are byte sequences in wire order, byte 0 first (R50). -/
inductive PortWord where
  /-- Bytes of one frame on the command wire, from the block to the module: output only (R93). -/
  | cf (bytes : List Byte)
  /-- Bytes of one capture on the response wire, from the module to the block: input only (R93). -/
  | rf (bytes : List Byte)
  /-- A host operation word, `OPSEL[2:0] ‖ OPERAND[7:0]` (R88). -/
  | hop (w : BitVec 11)
  /-- A configuration word `CFGSEL` with the delay on `CFG_D` (R89). -/
  | cfg (sel : BitVec 1) (d : Duration)
  deriving DecidableEq, Repr

/-- A word on an input of the block: what one step is asked to do.  A command frame is not among them: `CF` is output only
(R93), and the transport's `write` is no operation the host encodes (R89). -/
inductive InputWord where
  /-- Bytes of one capture on the response wire. -/
  | rf (bytes : List Byte)
  /-- A host operation word (R88). -/
  | hop (w : BitVec 11)
  /-- A configuration word (R89). -/
  | cfg (sel : BitVec 1) (d : Duration)
  deriving DecidableEq, Repr

/-- An input word as a word of its format. -/
def InputWord.port : InputWord → PortWord
  | .rf bytes => .rf bytes
  | .hop w => .hop w
  | .cfg sel d => .cfg sel d

/-- The port a word stands on. -/
def PortWord.format : PortWord → Format
  | .cf _ => .cf
  | .rf _ => .rf
  | .hop _ => .hop
  | .cfg _ _ => .cfg

end Sys2Proof
end

