-- ==== Sys2Proof/WellFormed.lean ====
section
/-! DEFINITION. Which operations are well formed: the constraints of spec/opcode_table.json that are no match/mask
condition (spec/30_encoding.md R92). -/

namespace Sys2Proof

open Sys2Proof.Machine

/-- A command frame carries the configured length byte and the right checksum (R92); a response frame carries the right
checksum (R83).  Every other operation takes any operand (41_command_encoder.md R122: an address is opaque). -/
def Instr.wellFormed (c : Config) : Instr → Bool
  | .cmdFrame len addr cks => len == c.cmdLenField && cks == frameChecksum c [c.cmdMarker, len, addr]
  | .rspFrame payload cks => cks == responseChecksum c payload
  | .rxClear => true
  | .rxPush _ => true
  | .validate => true
  | .encode _ => true
  | .query _ => true
  | .openT => true
  | .closeT => true
  | .setSettle _ => true
  | .getSettle => true

end Sys2Proof
end

