-- ==== Sys2Proof/Decode.lean ====
section
/-! DEFINITION. The decoder, total on every port word, which rejects by name; then the encoder, from the same tables
(spec/30_encoding.md R81, R83, R88 to R92; spec/opcode_table.json).  The decoder reads the words of both directions, as
one who watches the ports does (R93); the block itself decodes its input words only (`Machine.step`). -/

namespace Sys2Proof

open Sys2Proof.Machine

/-- Why a port word is no operation. -/
inductive DecodeError where
  /-- `OPSEL = 111` (R90). -/
  | reservedOpsel
  /-- A command frame is exactly 4 bytes (R80). -/
  | commandLength
  /-- Byte 0 is not `CMD_MARKER` (R92). -/
  | commandMarker
  /-- Byte 1 is not `CMD_LEN_FIELD` (R92). -/
  | commandLenField
  /-- Byte 3 is not the sum of bytes 0 to 2 (R92). -/
  | commandChecksum
  /-- Not a structurally correct response frame; `fail` is the first rule of 1 to 5 that fails (R92, R130). -/
  | notResponseFrame (fail : FailCode)
  deriving DecidableEq, Repr

/-- The `OPSEL` field, `HOP[10:8]` (R88). -/
def opselOf (w : BitVec 11) : BitVec 3 :=
  w.extractLsb' 8 3

/-- The `OPERAND` field, `HOP[7:0]` (R88). -/
def operandOf (w : BitVec 11) : Byte :=
  w.extractLsb' 0 8

/-- The `HOP` table of R88; `OPSEL = 111` is reserved (R90). -/
def decodeHop (w : BitVec 11) : Except DecodeError Instr :=
  match (opselOf w).toNat with
  | 0 => .ok .rxClear
  | 1 => .ok (.rxPush (operandOf w))
  | 2 => .ok .validate
  | 3 => .ok (.encode (operandOf w))
  | 4 => .ok (.query (operandOf w))
  | 5 => .ok .openT
  | 6 => .ok .closeT
  | _ => .error .reservedOpsel

/-- The `CFG` word: `CFGSEL` 1 sets, 0 gets (R89). -/
def decodeCfg (sel : BitVec 1) (d : Duration) : Instr :=
  if sel = 1 then .setSettle d else .getSettle

/-- A command frame: exactly when length, marker, length byte and checksum are right (R80, R92). -/
def decodeCommand (c : Config) : List Byte → Except DecodeError Instr
  | [m, l, a, k] =>
    if [m, l, a, k].length ≠ c.cmdFrameBytes then .error .commandLength
    else if m ≠ c.cmdMarker then .error .commandMarker
    else if l ≠ c.cmdLenField then .error .commandLenField
    else if k ≠ frameChecksum c [m, l, a] then .error .commandChecksum
    else .ok (.cmdFrame l a k)
  | _ => .error .commandLength

/-- A structurally correct response frame (R92, the match and mask of the table).  Whether it is valid is the verdict of
executing it (R130), not a matter of decoding: a wrong checksum is a FramingError, not a reserved encoding (R91). -/
def decodeResponse (c : Config) (bytes : List Byte) : Except DecodeError Instr :=
  match structuralFailure c bytes with
  | some fail => .error (.notResponseFrame fail)
  | none =>
    match bytes[c.rspPayloadIndex]?, bytes[c.rspCksIndex]? with
    | some p, some k => .ok (.rspFrame p k)
    | _, _ => .error (.notResponseFrame 1)

/-- The operation a port word stands for, or the name of what is wrong with it. -/
def decode (c : Config) : PortWord → Except DecodeError Instr
  | .cf bytes => decodeCommand c bytes
  | .rf bytes => decodeResponse c bytes
  | .hop w => decodeHop w
  | .cfg sel d => .ok (decodeCfg sel d)

/-- The host operation word `OPSEL ‖ OPERAND` (R88). -/
def hopBits (opsel : BitVec 3) (operand : Byte) : BitVec 11 :=
  opsel ++ operand

/-- `OPSEL ‖ OPERAND` on its port. -/
def hopWord (opsel : BitVec 3) (operand : Byte) : PortWord :=
  .hop (hopBits opsel operand)

/-- The word of an operation.  Where the `OPERAND` or `CFG_D` bits are ignored they are written as zero (log entry 16). -/
def encode (c : Config) : Instr → PortWord
  | .cmdFrame len addr cks => .cf [c.cmdMarker, len, addr, cks]
  | .rspFrame payload cks => .rf (responseBytes c payload cks)
  | .rxClear => hopWord 0 0
  | .rxPush b => hopWord 1 b
  | .validate => hopWord 2 0
  | .encode a => hopWord 3 a
  | .query a => hopWord 4 a
  | .openT => hopWord 5 0
  | .closeT => hopWord 6 0
  | .setSettle d => .cfg 1 d
  | .getSettle => .cfg 0 0

/-- The `n` bytes of a frame word, byte 0 most significant (R85). -/
def frameBytes : Nat → Nat → List Byte
  | 0, _ => []
  | n + 1, w => BitVec.ofNat 8 (w >>> (8 * n)) :: frameBytes n w

/-- The port word whose bits are `w`, numbered as the opcode table numbers them: up to 8 bits a `CFG` word with 0 on
`CFG_D`, up to 16 a `HOP` word, up to 32 a command frame, up to 48 a response frame.  A word with a bit above its port's
width is no word of that port (log entry 16). -/
def tableWord (nbits w : Nat) : Option PortWord :=
  if nbits ≤ 8 then if w < 2 then some (.cfg (BitVec.ofNat 1 w) 0) else none
  else if nbits ≤ 16 then if w < 2048 then some (.hop (BitVec.ofNat 11 w)) else none
  else if nbits ≤ 32 then if w < 4294967296 then some (.cf (frameBytes 4 w)) else none
  else if nbits ≤ 48 then if w < 281474976710656 then some (.rf (frameBytes 6 w)) else none
  else none

/-- The instruction the decoder reads from a word of the opcode table, under the normative configuration. -/
def decodeTableWord (nbits w : Nat) : Option Instr :=
  match tableWord nbits w with
  | some p =>
    match decode specConfig p with
    | .ok i => some i
    | .error _ => none
  | none => none

end Sys2Proof
end

