-- ==== Sys2Proof/Machine/State.lean ====
section
/-! DEFINITION. The state of the block (spec/10_state.md), the reasons a step may stop, and the state after reset. -/

namespace Sys2Proof.Machine

/-- The register-level outputs (R27): `RESULT`, `VALID`, `PAYLOAD` and `FAIL`. -/
structure Verdict where
  /-- `RESULT`, DOC0's RegisterResult: the only architecturally meaningful output. -/
  result : Option Byte
  /-- `VALID`. -/
  valid : Bool
  /-- `PAYLOAD`; 0x00 is a filler where `valid` is false. -/
  payload : Byte
  /-- `FAIL`. -/
  fail : FailCode
  deriving DecidableEq, Repr

/-- The capture registers (R21, R22). -/
structure Capture where
  /-- `RXCNT`, the bytes received since the last `RX_CLEAR`, saturating at 7. -/
  cnt : BitVec 3
  /-- `RXBUF[0..5]`; `none` is the spec's own "holds no value" (R24; log entry 4). -/
  buf : Vector (Option Byte) 6
  deriving DecidableEq, Repr

/-- The empty capture: what reset and `RX_CLEAR` leave (R39, R140). -/
def Capture.empty : Capture where
  cnt := 0
  buf := Vector.replicate 6 none

/-- The transport call that failed (43_register_exchange.md R163: steps 1, 2 and 4 of `QUERY`). -/
inductive TransportCall where
  | openCall
  | writeCall
  | readCall
  deriving DecidableEq, Repr

/-- The event record (R167).  A real open and a real close carry the delay they pay (R170, R171, R235; log entry 12). -/
inductive Event where
  | opened (tOpen : Duration)
  | wrote (frame : List Byte)
  | waited (tSettle : Duration)
  | read (bytes : List Byte)
  | transportFailed (call : TransportCall)
  | returned (result : Option Byte)
  | closed (tClose : Duration)
  deriving DecidableEq, Repr

/-- What the last operation returned to the host, on the ports of R38. -/
inductive Answer where
  /-- Nothing has been returned yet (reset; R39: `CMD` is none). -/
  | nothing
  /-- The operation is complete and returns no value. -/
  | done
  /-- `VALIDATE` (R143). -/
  | verdict (v : Verdict)
  /-- `ENCODE`: the port `CMD[0..3]` (R28, R120). -/
  | frame (cmd : List Byte)
  /-- `QUERY`: exactly `Option<byte>` (R160, R223). -/
  | result (r : Option Byte)
  /-- `OPEN` reports the transport's error (R170). -/
  | transportError
  /-- `GET_SETTLE`: the port `CFG_Q` (R177). -/
  | settle (d : Duration)
  deriving DecidableEq, Repr

/-- The state: the block's own registers, the transport's `OPEN` bit and receive queue, and the model's own record of
what goes in and out (the last five fields, log entries 2, 3 and 12). -/
structure State where
  /-- The hardwired protocol constants and open parameters (R30); no operation writes them. -/
  cfg : Config
  /-- `RXCNT` and `RXBUF[0..5]` (R21, R22). -/
  capture : Capture
  /-- `OPEN`: the transport is open (R32). -/
  isOpen : Bool
  /-- `T_SETTLE` (R31). -/
  tSettle : Duration
  /-- The transport's receive queue, oldest byte first (R35). -/
  rxQueue : List Byte
  /-- What the last operation returned (R38). -/
  answer : Answer
  /-- The history of transport events, oldest first (R167). -/
  events : List Event
  /-- The words that come next on the block's inputs: the operations the host has issued and the block has not yet performed,
  first the next (R26, R37). -/
  host : List InputWord
  /-- The environment's coming draws, first the next (R11, R37). -/
  env : List Draw
  /-- How many draws have been taken; indexes the free draws where `env` lists none. -/
  drawIndex : Nat
  deriving DecidableEq, Repr

/-- Why the machine stops with a fault. -/
inductive Fault where
  /-- A capture register that holds no value is read (R24, R233, U15).  Raised by the validation of six received bytes
  (`VALIDATE`, `RSP_FRAME`); no state that keeps `Capture.wf` reaches it.  Safe. -/
  | unwrittenCapture
  deriving DecidableEq, Repr

/-- Why the model gives a step no meaning. -/
inductive Refusal where
  /-- An instruction that has no meaning yet; raised only by an arm of `exec`.  Safe. -/
  | notModelled (mnemonic : String)
  /-- The input word is no operation: the reserved `OPSEL = 111` (R90).  Raised by `step`.  Safe. -/
  | undecodable (e : DecodeError)
  /-- A `CMD_FRAME` whose bytes are no command frame of this block (R92), which the block never puts on the wire.  Raised by
  `execCmdFrame`.  Safe. -/
  | notCommandFrame
  deriving DecidableEq, Repr

/-- The one update of each field. -/
def State.withCapture (s : State) (c : Capture) : State := { s with capture := c }
def State.withOpen (s : State) (b : Bool) : State := { s with isOpen := b }
def State.withSettle (s : State) (d : Duration) : State := { s with tSettle := d }
def State.withQueue (s : State) (q : List Byte) : State := { s with rxQueue := q }
def State.withAnswer (s : State) (a : Answer) : State := { s with answer := a }
def State.withEvent (s : State) (e : Event) : State := { s with events := s.events ++ [e] }
def State.withHost (s : State) (h : List InputWord) : State := { s with host := h }
def State.withEnv (s : State) (e : List Draw) (n : Nat) : State := { s with env := e, drawIndex := n }

/-- The state after reset (R39, R250) of a block with configuration `c` whose transport holds `q`: the capture is empty,
the transport closed, `T_SETTLE` at its default, and nothing has been returned, issued or recorded. -/
def State.resetWith (c : Config) (q : List Byte) : State where
  cfg := c
  capture := Capture.empty
  isOpen := false
  tSettle := c.tSettleDefault
  rxQueue := q
  answer := .nothing
  events := []
  host := []
  env := []
  drawIndex := 0

/-- The machine right after reset: the normative configuration and an unspecified receive queue (R39; log entries 5 to 7). -/
def State.reset : State :=
  State.resetWith specConfig Config.freeQueue

end Sys2Proof.Machine
end

