-- ==== Sys2Proof/Machine/Flags.lean ====
section
/-! DEFINITION. The validation function and the outputs computed from the capture (spec/42_response_validator.md R130,
R132; spec/10_state.md R27). -/

namespace Sys2Proof.Machine

/-- The triple `(valid, payload, fail)` of R130; `payload` is `none` where R130 writes a dash. -/
structure Validation where
  valid : Bool
  payload : Option Byte
  fail : FailCode
  deriving DecidableEq, Repr

/-- The answer of the first rule that fails (R130): no payload is produced (R132). -/
def rejected (fail : FailCode) : Validation where
  valid := false
  payload := none
  fail := fail

/-- `validate(s)`: the six rules, in order (R130).  Rules 1 to 5 are the structure; rule 6 compares the checksum byte with
the sum of all bytes before it; the payload is the byte at `RSP_PAYLOAD_INDEX`. -/
def validate (c : Config) (s : List Byte) : Validation :=
  match structuralFailure c s with
  | some fail => rejected fail
  | none =>
    if s[c.rspCksIndex]? ≠ some (frameChecksum c (s.take c.rspCksIndex)) then rejected 6
    else { valid := true, payload := s[c.rspPayloadIndex]?, fail := 0 }

/-- The register-level outputs of a validation (R27): the filler 0x00 where it is not valid. -/
def Validation.outputs (v : Validation) : Verdict where
  result := v.payload
  valid := v.valid
  payload := v.payload.getD 0x00
  fail := v.fail

/-- The values of registers read together, or `none` if one of them holds no value (R24). -/
def readAll : List (Option Byte) → Option (List Byte)
  | [] => some []
  | none :: _ => none
  | some b :: rest => (readAll rest).map (b :: ·)

/-- The first `n` capture registers read together, or `none` if one of them holds no value (R24). -/
def Capture.bytes? (c : Capture) (n : Nat) : Option (List Byte) :=
  readAll (c.buf.toList.take n)

/-- The outputs as a function of `RXCNT` and `RXBUF` (R27, R143): rule 1 is decided by `RXCNT` alone, and the registers
are read only where it is `RSP_FRAME_BYTES`, 6.  `none`: a register that holds no value would be read (R24). -/
def outputs (cfg : Config) (c : Capture) : Option Verdict :=
  if c.cnt.toNat ≠ cfg.rspFrameBytes then some (rejected 1).outputs
  else (c.bytes? cfg.rspFrameBytes).map fun s => (validate cfg s).outputs

/-- The port `RESULT` (R27). -/
def resultPort (cfg : Config) (c : Capture) : Option Byte :=
  (outputs cfg c).bind Verdict.result

end Sys2Proof.Machine
end

