-- ==== Sys2Proof/Machine/Ops.lean ====
section
/-! DEFINITION. The shared operations: the capture registers (spec/42_response_validator.md R140, R141), the draws
(spec/00_scope.md R11), the transport primitives (spec/43_register_exchange.md R170 to R173) and what a failure does
(spec/60_exceptions.md R221, R229). -/

namespace Sys2Proof.Machine

/-- `RX_PUSH b` on the capture registers (R141): the sixth byte is the last one kept, and the count saturates at `RXCNT_SAT`, 7. -/
def Capture.push (c : Capture) (b : Byte) : Capture where
  cnt := if c.cnt.toNat < rxcntSat then c.cnt + 1 else c.cnt
  buf := if h : c.cnt.toNat < 6 then c.buf.set c.cnt.toNat (some b) h else c.buf

/-- `RX_LOAD` (30_encoding.md R95): the capture after `RX_CLEAR` and one `RX_PUSH` for each byte in order. -/
def Capture.load (bytes : List Byte) : Capture :=
  bytes.foldl Capture.push Capture.empty

/-- Step 5 of `QUERY` up to the verdict (R160): the bytes become the capture. -/
def receive (bytes : List Byte) (s : State) : State :=
  s.withCapture (Capture.load bytes)

/-- `VALIDATE` (R143): return the outputs and change nothing else.  Reading a register that holds no value is the
model's fault (R24, R233). -/
def reportVerdict (s : State) : Host.Outcome State Fault Refusal :=
  match outputs s.cfg s.capture with
  | some v => .next (s.withAnswer (.verdict v))
  | none => .fault .unwrittenCapture

/-- The environment's answers for the next operation that calls the transport (R37). -/
def State.nextDraw (s : State) : Draw :=
  match s.env with
  | d :: _ => d
  | [] => Config.freeDraw s.drawIndex

/-- The environment's answers for the `k`-th operation from here on that calls the transport. -/
def State.drawAt (s : State) (k : Nat) : Draw :=
  match s.env[k]? with
  | some d => d
  | none => Config.freeDraw (s.drawIndex + k)

/-- Take the draw; the bytes that arrived before this operation's first transport call join the queue (R20, R35). -/
def State.takeDraw (s : State) : State :=
  (s.withEnv s.env.tail (s.drawIndex + 1)).withQueue (s.rxQueue ++ s.nextDraw.early)

/-- `ensure_open()` (R170): nothing where the transport is open; else the draw decides, a success pays `T_OPEN`, and a
failure leaves `OPEN` at 0. -/
def ensureOpen (d : Draw) (s : State) : State :=
  if s.isOpen then s
  else if d.openOk then (s.withOpen true).withEvent (.opened s.cfg.tOpen)
  else s.withEvent (.transportFailed .openCall)

/-- `write(bytes)` (R172): the transport accepts all of the bytes or fails. -/
def writeFrame (d : Draw) (frame : List Byte) (s : State) : State :=
  s.withEvent (if d.writeOk then .wrote frame else .transportFailed .writeCall)

/-- `wait T_SETTLE` (R160 step 3): an event, and the point where the module's bytes arrive (R235). -/
def waitSettle (d : Draw) (s : State) : State :=
  (s.withQueue (s.rxQueue ++ d.late)).withEvent (.waited s.tSettle)

/-- `read_available()` (R173, R161): what the read returns, or `none` where it fails. -/
def readAvailable (d : Draw) (s : State) : Option (List Byte) × State :=
  match d.read with
  | .queued => (some s.rxQueue, (s.withQueue []).withEvent (.read s.rxQueue))
  | .other bytes left => (some bytes, (s.withQueue left).withEvent (.read bytes))
  | .error left => (none, (s.withQueue left).withEvent (.transportFailed .readCall))

/-- What a TransportError does (R221, R229): the capture is emptied and `absent` is returned; nothing is saved, nothing
is masked, control goes nowhere. -/
def raiseAbsent (s : State) : State :=
  (s.withCapture Capture.empty).withAnswer (.result none)

/-- The end of an exchange without a transport error: `return RESULT` (R160 step 5). -/
def returnResult (s : State) : State :=
  (s.withAnswer (.result (resultPort s.cfg s.capture))).withEvent (.returned (resultPort s.cfg s.capture))

/-- The FAILED path of an exchange (R160). -/
def failExchange (s : State) : State :=
  (raiseAbsent s).withEvent (.returned none)

/-- Steps 4 and 5 of an exchange (R160): one read (R162), then the verdict. -/
def readAndValidate (d : Draw) (s : State) : State :=
  match readAvailable d s with
  | (some bytes, t) => returnResult (receive bytes t)
  | (none, t) => failExchange t

/-- One register exchange at address `a` (R160).  The first transport error ends it (R163, R228). -/
def exchange (a : Byte) (s : State) : State :=
  let d := s.nextDraw
  let s1 := ensureOpen d s.takeDraw
  if s1.isOpen = false then failExchange s1
  else if d.writeOk = false then failExchange (writeFrame d (commandFrame s1.cfg a) s1)
  else readAndValidate d (waitSettle d (writeFrame d (commandFrame s1.cfg a) s1))

end Sys2Proof.Machine
end

