-- ==== Sys2Proof/Machine/Encoder.lean ====
section
/-! DEFINITION. The command encoder (spec/41_command_encoder.md): `ENCODE`. -/

namespace Sys2Proof.Machine

/-- `ENCODE a` (R120): the frame on the port `CMD`; no other state is written, and it cannot fail. -/
def execEncode (a : Byte) (s : State) : Host.Outcome State Fault Refusal :=
  .next (s.withAnswer (.frame (commandFrame s.cfg a)))

end Sys2Proof.Machine
end

