-- ==== Sys2Proof/Machine/Exchange.lean ====
section
/-! DEFINITION. The register exchange (spec/43_register_exchange.md section 1): `QUERY`. -/

namespace Sys2Proof.Machine

/-- `QUERY a` (R160): every failure yields `absent` and nothing else (R163), so it always completes (R162). -/
def execQuery (a : Byte) (s : State) : Host.Outcome State Fault Refusal :=
  .next (exchange a s)

end Sys2Proof.Machine
end

