-- ==== Sys2Proof/Machine/Frames.lean ====
section
/-! DEFINITION. The two wire frames as operations: `CMD_FRAME` is the exchange that puts the command frame on the wire,
`RSP_FRAME` a response frame taken as a capture (log entries 8 and 9). -/

namespace Sys2Proof.Machine

/-- `CMD_FRAME`: the frame "built by ENCODE and sent by QUERY" (spec/opcode_table.json, R81, R120).  The block writes only in
step 2 of an exchange and nothing between exchanges (43_register_exchange.md R175), so that putting this frame on the wire
IS the exchange at its address (R160); it is an output, and no input word decodes to it (R93).  Bytes that are no command
frame of this block (R92) are never put there. -/
def execCmdFrame (len addr cks : Byte) (s : State) : Host.Outcome State Fault Refusal :=
  if [s.cfg.cmdMarker, len, addr, cks] = commandFrame s.cfg addr then .next (exchange addr s)
  else .refused .notCommandFrame

/-- `RSP_FRAME`: the six bytes become the capture and are validated (R83, R130; the pseudo-operation `CHECK` of R95). -/
def execRspFrame (payload cks : Byte) (s : State) : Host.Outcome State Fault Refusal :=
  reportVerdict (receive (responseBytes s.cfg payload cks) s)

end Sys2Proof.Machine
end

