-- ==== Sys2Proof/Machine/Parser.lean ====
section
/-! DEFINITION. The byte-serial parser (spec/42_response_validator.md section 2): `RX_CLEAR`, `RX_PUSH`, `VALIDATE`. -/

namespace Sys2Proof.Machine

/-- `RX_CLEAR` (R140). -/
def execRxClear (s : State) : Host.Outcome State Fault Refusal :=
  .next ((s.withCapture Capture.empty).withAnswer .done)

/-- `RX_PUSH b` (R141). -/
def execRxPush (b : Byte) (s : State) : Host.Outcome State Fault Refusal :=
  .next ((s.withCapture (s.capture.push b)).withAnswer .done)

/-- `VALIDATE` (R143). -/
def execValidate (s : State) : Host.Outcome State Fault Refusal :=
  reportVerdict s

end Sys2Proof.Machine
end

