-- ==== Sys2Proof/Machine/Settle.lean ====
section
/-! DEFINITION. The configuration port (spec/43_register_exchange.md R176, R177): `SET_SETTLE` and `GET_SETTLE`. -/

namespace Sys2Proof.Machine

/-- `SET_SETTLE d` (R176): any non-negative duration. -/
def execSetSettle (d : Duration) (s : State) : Host.Outcome State Fault Refusal :=
  .next ((s.withSettle d).withAnswer .done)

/-- `GET_SETTLE` (R177). -/
def execGetSettle (s : State) : Host.Outcome State Fault Refusal :=
  .next (s.withAnswer (.settle s.tSettle))

end Sys2Proof.Machine
end

