-- ==== Sys2Proof/Machine/Transport.lean ====
section
/-! DEFINITION. The host's transport operations (spec/43_register_exchange.md R170, R171): `OPEN` and `CLOSE`. -/

namespace Sys2Proof.Machine

/-- `OPEN` (R170): a no-op where the transport is open; else it opens, or reports the transport's error with `OPEN` still
0.  The capture is untouched. -/
def execOpen (s : State) : Host.Outcome State Fault Refusal :=
  .next (
    if s.isOpen then s.withAnswer .done
    else (ensureOpen s.nextDraw s.takeDraw).withAnswer (if s.nextDraw.openOk then .done else .transportError))

/-- `CLOSE` (R171): nothing where the transport is closed; else `OPEN` becomes 0 and `T_CLOSE` is paid, whether or not
`close()` reports an error (log entry 14). -/
def execClose (s : State) : Host.Outcome State Fault Refusal :=
  .next (
    if s.isOpen then ((s.withOpen false).withEvent (.closed s.cfg.tClose)).withAnswer .done
    else s.withAnswer .done)

end Sys2Proof.Machine
end

