-- ==== Sys2Proof/Machine/Dispatch.lean ====
section
/-! DEFINITION. One arm per operation: each is one call of its meaning. -/

namespace Sys2Proof.Machine

def exec (i : Instr) (s : State) : Host.Outcome State Fault Refusal :=
  match i with
  | .cmdFrame len addr cks => Sys2Proof.Machine.execCmdFrame len addr cks s
  | .rspFrame payload cks => Sys2Proof.Machine.execRspFrame payload cks s
  | .rxClear => Sys2Proof.Machine.execRxClear s
  | .rxPush b => Sys2Proof.Machine.execRxPush b s
  | .validate => Sys2Proof.Machine.execValidate s
  | .encode a => Sys2Proof.Machine.execEncode a s
  | .query a => Sys2Proof.Machine.execQuery a s
  | .openT => Sys2Proof.Machine.execOpen s
  | .closeT => Sys2Proof.Machine.execClose s
  | .setSettle d => Sys2Proof.Machine.execSetSettle d s
  | .getSettle => Sys2Proof.Machine.execGetSettle s

end Sys2Proof.Machine
end

