-- ==== Sys2Proof/Machine/Fetch.lean ====
section
/-! DEFINITION. How the block comes by its next operation, and what it does with an input word that is none
(spec/10_state.md R20, R26, R37; spec/30_encoding.md R90, R91, R93; log entries 2, 8 and 10). -/

namespace Sys2Proof.Machine

/-- The next input word, taken off the list of those that have come. -/
def State.fetch (s : State) : Option (InputWord × State) :=
  match s.host with
  | [] => none
  | w :: rest => some (w, s.withHost rest)

/-- The input `w` comes ahead of everything else. -/
def State.issueFirst (s : State) (w : InputWord) : State :=
  s.withHost (w :: s.host)

/-- The input that makes the block perform what a port word stands for.  An input word is its own; a command frame is an
output, which the block puts on the wire when the host issues `QUERY` at its address (R93, R175), and never if it is no
command frame of this block (R92). -/
def inputFor (c : Config) : PortWord → Option InputWord
  | .rf bytes => some (.rf bytes)
  | .hop w => some (.hop w)
  | .cfg sel d => some (.cfg sel d)
  | .cf bytes =>
    match bytes[2]? with
    | some a => if bytes = commandFrame c a then some (.hop (hopBits 4 a)) else none
    | none => none

/-- An input word that is no operation.  Bytes on the response wire that are no response frame are an invalid capture, not
an illegal operation (R91): they are taken and validated.  Anything else is refused, by name (R90). -/
def undecoded (e : DecodeError) (w : InputWord) (s : State) : Host.Outcome State Fault Refusal :=
  match w with
  | .rf bytes => reportVerdict (receive bytes s)
  | .hop _ => .refused (.undecodable e)
  | .cfg _ _ => .refused (.undecodable e)

end Sys2Proof.Machine
end

