-- ==== Sys2Proof/Machine/Step.lean ====
section
/-! DEFINITION. One step: the block takes the host's next operation, decodes it and performs it, whole
(spec/10_state.md R20, R26; log entries 1 and 2). -/

namespace Sys2Proof.Machine

/-- One step.  With no operation issued the block waits (R251). -/
def step (s : State) : Host.Outcome State Fault Refusal :=
  match s.fetch with
  | none => .next s
  | some (w, t) =>
    match decode t.cfg w.port with
    | .ok i => exec i t
    | .error e => undecoded e w t

/-- The state in which the next `step` performs what the word `w` of the opcode table, `nbits` wide, stands for: the input
that makes the block do it comes first.  A word that no input makes the block perform leaves the state as it is. -/
def State.withFetchWord (s : State) (nbits w : Nat) : State :=
  match (tableWord nbits w).bind (inputFor s.cfg) with
  | some i => s.issueFirst i
  | none => s

end Sys2Proof.Machine
end

