-- ==== Sys2Proof/Machine/Binary64.lean ====
section
/-! DEFINITION. Rounding to IEEE-754 binary64, round to nearest, ties to even, on exact rationals
(spec/49_environment_consumers.md R198; log entry 17). -/

namespace Sys2Proof.Machine

/-- The integer nearest to `n / d`, the even one where two are equally near. -/
def roundHalfEven (n d : Nat) : Nat :=
  let q := n / d
  let r := n % d
  if 2 * r < d then q else if 2 * r > d then q + 1 else if q % 2 = 0 then q else q + 1

/-- `n / d` scaled by the power of two `k`, as a numerator and a denominator. -/
def scaleByTwo (n d : Nat) (k : Int) : Nat × Nat :=
  if 0 ≤ k then (n * 2 ^ k.toNat, d) else (n, d * 2 ^ (-k).toNat)

/-- The exponent `e` with `2^e ≤ n/d < 2^(e+1)`, for positive `n` and `d`. -/
def binaryExponent (n d : Nat) : Int :=
  let e : Int := (n.log2 : Int) - (d.log2 : Int)
  let scaled := scaleByTwo n d (-e)
  if scaled.2 ≤ scaled.1 then e else e - 1

/-- `fl(q)` (R198): the binary64 number nearest to `q`, for `q` in binary64's finite range (the consumers' values lie
between -273.15 and 65535). -/
def fl (q : Rat) : Rat :=
  if q.num = 0 then 0
  else
    let shift : Int := 52 - max (binaryExponent q.num.natAbs q.den) (-1022)
    let scaled := scaleByTwo q.num.natAbs q.den shift
    let m := roundHalfEven scaled.1 scaled.2
    let back := scaleByTwo m 1 (-shift)
    mkRat (q.num.sign * back.1) back.2

end Sys2Proof.Machine
end

