-- ==== Sys2Proof/Machine/Consumers.lean ====
section
/-! DEFINITION. The consumers around the block, all of them ENVIRONMENT (spec/49_environment_consumers.md): host software
that uses `QUERY`.  The register addresses are an open parameter and so an argument, `addr` (spec/20_memory.md R56;
log entry 17). -/

namespace Sys2Proof.Machine

/-- The thirteen named registers of the module (20_memory.md R56). -/
inductive RegName where
  | humLo | humHi | tempLo | tempHi | val3Lo | val3Hi | val4Lo | val4Hi
  | caps | status | groupLo | subgroup | groupHi
  deriving DecidableEq, Repr

/-- The address of each named register: an open parameter, and injective (R56, R202); a map that gives two names one
address is refused by the type (93_implementation_defined.md U7). -/
structure AddressMap where
  at_ : RegName → Byte
  distinct : Function.Injective at_

/-- One `QUERY`: its result and the state after it. -/
def queryRegister (a : Byte) (s : State) : Option Byte × State :=
  let t := exchange a s
  match t.answer with
  | .result r => (r, t)
  | _ => (none, t)

/-- A register that is queried only if it is expected; one that is not counts as absent (R195). -/
def queryIf (expected : Bool) (a : Byte) (s : State) : Option Byte × State :=
  if expected then queryRegister a s else (none, s)

/-- CapabilitySet (R191). -/
structure CapabilitySet where
  humidity : Bool
  temperature : Bool
  airVelocity : Bool
  co2 : Bool
  deriving DecidableEq, Repr

/-- The bits of the capability bitmask; all false where the read failed (R204). -/
def decodeCapabilities : Option Byte → CapabilitySet
  | none => ⟨false, false, false, false⟩
  | some b => ⟨b.getLsbD 0, b.getLsbD 1, b.getLsbD 2, b.getLsbD 3⟩

/-- `probe()` (R204). -/
def probe (addr : AddressMap) (s : State) : CapabilitySet × State :=
  let (c, t) := queryRegister (addr.at_ .caps) s
  (decodeCapabilities c, t)

/-- `raw(low, high) = low + high * 256` (R196). -/
def raw (low high : Byte) : Nat :=
  low.toNat + high.toNat * 256

/-- A channel value, from two bytes that are both present; else not a number, `none` (R197). -/
def channel (transform : Nat → Rat) : Option Byte → Option Byte → Option Rat
  | some low, some high => some (transform (raw low high))
  | some _, none => none
  | none, _ => none

/-- Humidity in %RH: `fl(raw / 100)` (R197, R198). -/
def humidityOf (r : Nat) : Rat :=
  fl (mkRat r 100)

/-- Temperature in °C: `fl(fl(raw / 100) − fl(273.15))` (R197, R198). -/
def temperatureOf (r : Nat) : Rat :=
  fl (fl (mkRat r 100) - fl (mkRat 27315 100))

/-- A generic channel: the raw integer, exact in binary64 (R197). -/
def genericOf (r : Nat) : Rat :=
  mkRat r 1

/-- The bytes of one sampling cycle (R195). -/
structure CycleBytes where
  humLo : Option Byte
  humHi : Option Byte
  tempLo : Option Byte
  tempHi : Option Byte
  val3Lo : Option Byte
  val3Hi : Option Byte
  val4Lo : Option Byte
  val4Hi : Option Byte
  status : Option Byte
  deriving DecidableEq, Repr

/-- MeasurementValues (R190); `none` is "not a number". -/
structure MeasurementValues where
  humidity : Option Rat
  temperature : Option Rat
  value3 : Option Rat
  value4 : Option Rat
  deriving DecidableEq, Repr

/-- The fold of one cycle (R195): gated by the status register, which must have been read and be 0x00 (R193, R201). -/
def decodeMeasurement (c : Config) (b : CycleBytes) : MeasurementValues :=
  if b.status ≠ some c.statusRegOk then ⟨none, none, none, none⟩
  else
    { humidity := channel humidityOf b.humLo b.humHi
      temperature := channel temperatureOf b.tempLo b.tempHi
      value3 := channel genericOf b.val3Lo b.val3Hi
      value4 := channel genericOf b.val4Lo b.val4Hi }

/-- Which channels are expected to be present (R194 step 2). -/
structure Expected where
  humidity : Bool
  temperature : Bool
  value3 : Bool
  value4 : Bool
  deriving DecidableEq, Repr

/-- The queries of one cycle, in the order of R195's pseudocode; the status register last (R194; log entry 17). -/
def readCycle (addr : AddressMap) (e : Expected) (s : State) : CycleBytes × State :=
  let (hl, s1) := queryIf e.humidity (addr.at_ .humLo) s
  let (hh, s2) := queryIf e.humidity (addr.at_ .humHi) s1
  let (tl, s3) := queryIf e.temperature (addr.at_ .tempLo) s2
  let (th, s4) := queryIf e.temperature (addr.at_ .tempHi) s3
  let (l3, s5) := queryIf e.value3 (addr.at_ .val3Lo) s4
  let (h3, s6) := queryIf e.value3 (addr.at_ .val3Hi) s5
  let (l4, s7) := queryIf e.value4 (addr.at_ .val4Lo) s6
  let (h4, s8) := queryIf e.value4 (addr.at_ .val4Hi) s7
  let (st, s9) := queryRegister (addr.at_ .status) s8
  (⟨hl, hh, tl, th, l3, h3, l4, h4, st⟩, s9)

/-- `sample()` (R194, R195). -/
def sample (addr : AddressMap) (e : Expected) (s : State) : MeasurementValues × State :=
  let (b, t) := readCycle addr e s
  (decodeMeasurement t.cfg b, t)

/-- The two optional quantities that have a capability bit (R191, R199). -/
inductive OptionalQuantity where
  | airVelocity
  | co2
  deriving DecidableEq, Repr

/-- Is this quantity present in the module (R191)? -/
def CapabilitySet.has (caps : CapabilitySet) : OptionalQuantity → Bool
  | .airVelocity => caps.airVelocity
  | .co2 => caps.co2

/-- Which quantity each generic channel is: not in the source (R199), so a parameter (log entry 17). -/
structure GenericChannels where
  value3 : OptionalQuantity
  value4 : OptionalQuantity
  deriving DecidableEq, Repr

/-- How the driver comes to know which channels to expect (R194 step 2, R210). -/
inductive SamplingMode where
  /-- Informed by CapabilitySet: every channel as its capability bit says. -/
  | probed
  /-- The simpler mode: humidity and temperature unconditionally, the generic channels as their capability bits say. -/
  | simple
  /-- The minimal deployment, which does not probe: humidity and temperature always (R210); the generic channels never, which
  is the model's choice (DESIGN CHOICE, log entry 17). -/
  | unprobed
  deriving DecidableEq, Repr

/-- The channels expected in each mode (R194 step 2, R210). -/
def expectedChannels (g : GenericChannels) (caps : CapabilitySet) : SamplingMode → Expected
  | .probed => ⟨caps.humidity, caps.temperature, caps.has g.value3, caps.has g.value4⟩
  | .simple => ⟨true, true, caps.has g.value3, caps.has g.value4⟩
  | .unprobed => ⟨true, true, false, false⟩

/-- What a mode knows of the module: the result of `probe()`, or, where the mode does not probe, nothing assumed present
(R204, R210). -/
def capabilitiesFor (mode : SamplingMode) (addr : AddressMap) (s : State) : CapabilitySet × State :=
  match mode with
  | .probed => probe addr s
  | .simple => probe addr s
  | .unprobed => (decodeCapabilities none, s)

/-- A sampling cycle of a driver that derived `caps` earlier: CapabilitySet is derived once, and quasi-static (R191). -/
def sampleFor (mode : SamplingMode) (g : GenericChannels) (caps : CapabilitySet) (addr : AddressMap) (s : State) :
    MeasurementValues × State :=
  sample addr (expectedChannels g caps mode) s

/-- The first sampling cycle of a driver: it learns the capabilities as its mode does, then samples (R194, R210). -/
def firstSample (mode : SamplingMode) (g : GenericChannels) (addr : AddressMap) (s : State) : MeasurementValues × State :=
  let (caps, t) := capabilitiesFor mode addr s
  sampleFor mode g caps addr t

/-- A string, as its characters in order. -/
abbrev Text := List Char

/-- The decimal digits of a number, without padding (R206). -/
def decimal (n : Nat) : Text :=
  Nat.toDigits 10 n

/-- The fixed placeholder (R205, R207). -/
def placeholder : Text :=
  ['?', '?', '?']

/-- A group-high of 0x55 or 0xFF means "no high byte" (R206). -/
def groupHighOf (gh : Byte) : Byte :=
  if gh = 0x55 ∨ gh = 0xFF then 0x00 else gh

/-- `productSeries = groupHigh * 256 + groupLow` (R206). -/
def productSeries (gl gh : Byte) : Nat :=
  raw gl (groupHighOf gh)

/-- The product series, zero padded to two digits (R206). -/
def seriesDigits (n : Nat) : Text :=
  if n < 10 then '0' :: decimal n else decimal n

/-- The device-type text of three present bytes (R206). -/
def deviceType (gl sg gh : Byte) : Text :=
  let out := sg.toNat / 16
  let fw := sg.toNat % 16
  ['E', 'E'] ++ seriesDigits (productSeries gl gh)
    ++ (if out ≠ 0 then '-' :: decimal out else [])
    ++ [' ', 'F', 'T'] ++ decimal fw

/-- The decoding of the three identification registers: the placeholder where one is absent (R205, R208). -/
def decodeIdentity : Option Byte → Option Byte → Option Byte → Text
  | some gl, some sg, some gh => deviceType gl sg gh
  | _, _, _ => placeholder

/-- `identify()` (R205, R206): group-low, subgroup, group-high, in this order. -/
def identify (addr : AddressMap) (s : State) : Text × State :=
  let (gl, s1) := queryRegister (addr.at_ .groupLo) s
  let (sg, s2) := queryRegister (addr.at_ .subgroup) s1
  let (gh, s3) := queryRegister (addr.at_ .groupHi) s2
  (decodeIdentity gl sg gh, s3)

/-- The parts that the device identity combines (R192). -/
structure IdentityParts where
  manufacturer : Text
  deviceType : Text
  firmwareVersion : Text
  serialNumber : Text
  port : Text
  deriving DecidableEq, Repr

/-- The open parameters of the device identity (93_implementation_defined.md U13; log entry 17): the manufacturer constant,
and the layout in which the parts are combined into one formatted string. -/
structure IdentityFormat where
  manufacturer : Text
  layout : IdentityParts → Text

/-- DeviceIdentity: the one formatted string, recomputed on every access (R192); the type string is that of `identify()`,
and firmware version and serial number are always the placeholder (R207). -/
def deviceIdentity (format : IdentityFormat) (port : Text) (addr : AddressMap) (s : State) : Text × State :=
  let (t, s1) := identify addr s
  (format.layout
    { manufacturer := format.manufacturer
      deviceType := t
      firmwareVersion := placeholder
      serialNumber := placeholder
      port := port }, s1)

end Sys2Proof.Machine
end

