-- ==== Sys2Proof/Machine/Pseudo.lean ====
section
/-! DEFINITION. The pseudo-operations (spec/30_encoding.md R95): abbreviations of sequences of real operations. -/

namespace Sys2Proof.Machine

/-- Perform operations one after the other, stopping at the first fault or refusal. -/
def execAll : List Instr → State → Host.Outcome State Fault Refusal
  | [], s => .next s
  | i :: is, s =>
    match exec i s with
    | .next t => execAll is t
    | .fault f => .fault f
    | .refused r => .refused r

/-- `RX_LOAD b0 … bk` (R95). -/
def rxLoad (bytes : List Byte) : List Instr :=
  .rxClear :: bytes.map .rxPush

/-- `CHECK b0 … bk` (R95): DOC0's `ResponseValidator(sequence)`. -/
def check (bytes : List Byte) : List Instr :=
  rxLoad bytes ++ [.validate]

end Sys2Proof.Machine
end

