-- ==== Sys2Proof/Safety.lean ====
section
/-! DEFINITION. What a good state is: the invariants of spec/10_state.md R40 and the whole-machine promises that the
history must keep. -/

namespace Sys2Proof.Machine

/-- A capture register holds a value exactly where its index is below `RXCNT` (R24, R40). -/
abbrev Capture.Wf (c : Capture) : Prop :=
  ∀ i : Fin 6, c.buf[i.val].isSome = decide (i.val < c.cnt.toNat)

/-- The registers hold the sequence `cap` of bytes pushed since the last `RX_CLEAR` (R23). -/
abbrev Capture.Holds (c : Capture) (cap : List Byte) : Prop :=
  c.cnt.toNat = min cap.length 7 ∧ ∀ i : Fin 6, c.buf[i.val] = cap[i.val]?

/-- What one event makes of the `OPEN` bit (R32). -/
def openBit (b : Bool) : Event → Bool
  | .opened _ => true
  | .closed _ => false
  | .wrote _ => b
  | .waited _ => b
  | .read _ => b
  | .transportFailed _ => b
  | .returned _ => b

/-- Is the transport open after this history, from a closed one (R32)? -/
def openAfter (es : List Event) : Bool :=
  es.foldl openBit false

/-- The frame an event puts on the wire, if it does. -/
def frameWritten : Event → Option (List Byte)
  | .wrote f => some f
  | .opened _ => none
  | .closed _ => none
  | .waited _ => none
  | .read _ => none
  | .transportFailed _ => none
  | .returned _ => none

/-- The frames put on the wire, oldest first. -/
def framesWritten (es : List Event) : List (List Byte) :=
  es.filterMap frameWritten

/-- The result an event returns to the host, if it does. -/
def resultReturned : Event → Option (Option Byte)
  | .returned r => some r
  | .opened _ => none
  | .closed _ => none
  | .wrote _ => none
  | .waited _ => none
  | .read _ => none
  | .transportFailed _ => none

/-- The results of the exchanges of a history, oldest first: one for each exchange (R167). -/
def resultsReturned (es : List Event) : List (Option Byte) :=
  es.filterMap resultReturned

/-- Every read of the transport follows at once a settle delay that follows at once a written frame (R60, R175). -/
def ReadsFollowWrites (es : List Event) : Prop :=
  ∀ before bytes after, es = before ++ .read bytes :: after →
    ∃ earlier frame d, before = earlier ++ [.wrote frame, .waited d]

/-- The machine's invariant: the capture registers are as R40 says, `OPEN` is what the history of opens and closes makes
it (R32), and nothing but the command frame of some address was ever written (R92, R93). -/
abbrev State.Inv (s : State) : Prop :=
  s.capture.Wf ∧ s.isOpen = openAfter s.events ∧ ∀ f ∈ framesWritten s.events, ∃ a, f = commandFrame s.cfg a

/-- The outputs agree with each other (R27, R40). -/
abbrev Verdict.Consistent (v : Verdict) : Prop :=
  (v.valid = true ↔ v.fail = 0) ∧ v.fail ≠ 7 ∧
  v.result = (if v.valid then some v.payload else none) ∧ (v.valid = false → v.payload = 0x00)

end Sys2Proof.Machine
end

