-- ==== Sys2Proof/Certificates/Slice0/Obligations.lean ====
section
/-! DEFINITION. The statements for the provers.  Throughout, `cap.Holds bytes` says that the capture registers hold exactly
`bytes` (spec/10_state.md R23), and `s.nextDraw` is the environment's answers for the next transport operation
(spec/00_scope.md R11).  The fields `answer`, `events`, `host`, `env`, `drawIndex` and `rxQueue` carry the model's own
record of what goes in and out of the block (log entries 2, 3, 7, 12 and 13): where a statement gives one of them a value,
that clause is the model's form of what the rule says is returned, written, waited for or read.  `c.SpecSizes` says that the
five sizes of the configuration are those of spec/00_scope.md R7: a frame of 4 or of 6 bytes, the payload at 4, the checksum
at 5, the modulus 256 (R80).  They are so after reset, and no step writes the configuration
(`NoStepWritesTheProtocolConstants`), so that no run leaves the states with these sizes. -/

open Sys2Proof Sys2Proof.Machine

/-! ## Reset and the invariants -/

/-- R39: the values after reset, for every configuration `c` with the sizes of R7 and every content `q` of the receive
queue. -/
def Obligations.ResetLeavesTheValuesOfTheResetTable : Prop :=
  State.reset = State.resetWith specConfig Config.freeQueue ∧
  ∀ (c : Config) (q : List Byte), c.SpecSizes →
    (State.resetWith c q).capture.cnt = 0 ∧
    (∀ i : Fin 6, (State.resetWith c q).capture.buf[i.val] = none) ∧
    outputs c (State.resetWith c q).capture = some { result := none, valid := false, payload := 0x00, fail := 1 } ∧
    (State.resetWith c q).answer = .nothing ∧
    (State.resetWith c q).isOpen = false ∧
    (State.resetWith c q).tSettle = c.tSettleDefault ∧
    (State.resetWith c q).cfg = c ∧
    (State.resetWith c q).rxQueue = q

/-- R40 and the whole-machine promises hold after reset. -/
def Obligations.ResetMeetsTheInvariant : Prop :=
  ∀ (c : Config) (q : List Byte), (State.resetWith c q).Inv ∧ ReadsFollowWrites (State.resetWith c q).events

/-- R40 and the whole-machine promises are kept by every step, from every state that meets them: the capture registers
hold a value exactly below `RXCNT`, `OPEN` is what the history of opens and closes makes it, and nothing but the
command frame of some address was ever put on the wire. -/
def Obligations.EveryStepKeepsTheInvariant : Prop :=
  ∀ s t : State, s.Inv → step s = .next t → t.Inv

/-- Every read of the transport directly follows a settle delay that directly follows a written frame, and every step
keeps it so (R60, R175). -/
def Obligations.EveryStepReadsOnlyAfterWriteAndSettle : Prop :=
  ∀ s t : State, ReadsFollowWrites s.events → step s = .next t → ReadsFollowWrites t.events

/-- In the model's `specConfig` the protocol constants and the sizes hold DOC0's literals (R7, R30); `CMD_MARKER` = 0x51 is
the spec's decision D3 and `CMD_LEN_FIELD` = 0x01 its default for an open parameter (decision D4): DOC0 gives no literal for
either, and that this configuration has them is the model's choice (log entry 5).  And no step writes the configuration. -/
def Obligations.NoStepWritesTheProtocolConstants : Prop :=
  (specConfig.marker = 0x51 ∧ specConfig.rspLenField = 0x03 ∧ specConfig.rspStatusOk = 0x06 ∧
    specConfig.rspReserved = 0x00 ∧ specConfig.cmdMarker = 0x51 ∧ specConfig.cmdLenField = 0x01) ∧
  specConfig.SpecSizes ∧
  ∀ s t : State, step s = .next t → t.cfg = s.cfg

/-! ## Decoding -/

/-- Decode after encode, for every well-formed operation with every operand, under every configuration with the sizes of R7.
The second clause is the model's choice (log entry 10, DEDUCED from R91 and R92): a response frame decodes, and so comes
back, whatever its checksum byte. -/
def Obligations.DecodeOfEncodeIsTheOperation : Prop :=
  (∀ (c : Config) (i : Instr), c.SpecSizes → i.wellFormed c = true → decode c (encode c i) = .ok i) ∧
  ∀ (c : Config) (p k : Byte), c.SpecSizes → decode c (encode c (.rspFrame p k)) = .ok (.rspFrame p k)

/-- What a word decodes to stands on that word's port, is well formed unless it is a response frame with a wrong
checksum (which decodes by the model's choice, log entry 10), and, for the two wire formats, is encoded by that very word: no
two frames mean the same. -/
def Obligations.DecodedOperationsFitTheirWords : Prop :=
  ∀ (c : Config) (w : PortWord) (i : Instr), c.SpecSizes → decode c w = .ok i →
    i.format = w.format ∧
    (i.wellFormed c = true ∨ ∃ p k, i = .rspFrame p k) ∧
    (w.format = .cf ∨ w.format = .rf → encode c i = w)

/-- R88: the `HOP` table, with the `OPERAND` bits ignored where the operation takes no operand. -/
def Obligations.HopWordsDecodeByOpsel : Prop :=
  ∀ (c : Config) (x : Byte),
    decode c (.hop (0b000#3 ++ x)) = .ok .rxClear ∧
    decode c (.hop (0b001#3 ++ x)) = .ok (.rxPush x) ∧
    decode c (.hop (0b010#3 ++ x)) = .ok .validate ∧
    decode c (.hop (0b011#3 ++ x)) = .ok (.encode x) ∧
    decode c (.hop (0b100#3 ++ x)) = .ok (.query x) ∧
    decode c (.hop (0b101#3 ++ x)) = .ok .openT ∧
    decode c (.hop (0b110#3 ++ x)) = .ok .closeT ∧
    decode c (.hop (0b111#3 ++ x)) = .error .reservedOpsel

/-- R90: `OPSEL = 111` is refused by name, and it is the only `HOP` word that is. -/
def Obligations.OnlyOpselSevenIsRefused : Prop :=
  (∀ (s : State) (w : BitVec 11) (rest : List InputWord), s.host = .hop w :: rest → w.extractLsb' 8 3 = 0b111#3 →
    step s = .refused (.undecodable .reservedOpsel)) ∧
  ∀ (c : Config) (w : BitVec 11), w.extractLsb' 8 3 ≠ 0b111#3 → ∃ i, decode c (.hop w) = .ok i

/-- A byte sequence decodes as a command frame exactly when it is the frame of some address (R92, R123). -/
def Obligations.CommandFramesAreExactlyTheEncodersOutputs : Prop :=
  ∀ (c : Config) (bytes : List Byte), c.SpecSizes →
    ((∃ i, decode c (.cf bytes) = .ok i) ↔
      ∃ a, bytes = [c.cmdMarker, c.cmdLenField, a, c.cmdMarker + c.cmdLenField + a])

/-- A 48-bit word of the opcode table decodes as a response frame exactly when its bits 47 to 16 are 0x51030600, and its
payload and checksum are then bits 15 to 8 and 7 to 0.  R92 calls such a word structurally correct, the match of the table's
mask; that the decoder takes it on this alone, whatever its checksum byte, and leaves the checksum to the verdict, is the
model's choice (log entry 10, DEDUCED from R91 and R92). -/
def Obligations.ResponseWordsDecodeByMatchAndMask : Prop :=
  ∀ w : Nat, w < 2 ^ 48 →
    (w / 2 ^ 16 = 0x51030600 →
      decodeTableWord 48 w = some (.rspFrame (BitVec.ofNat 8 (w / 256)) (BitVec.ofNat 8 w))) ∧
    (w / 2 ^ 16 ≠ 0x51030600 → decodeTableWord 48 w = none)

/-- Words written out from the spec's encodings decode to what they stand for.  That a table word of 8 bits is a `CFG` word
with 0 on `CFG_D`, and how the other ports stand in table words, is the model's choice (log entry 16); the command words have
`CMD_LEN_FIELD` = 0x01, the spec's default (log entry 5); 0x510181D4 is no command frame, since its checksum is wrong (R92),
and 0x700 has the reserved `OPSEL` (R90). -/
def Obligations.WorkedWordsDecode : Prop :=
  decodeTableWord 16 0x000 = some .rxClear ∧ decodeTableWord 16 0x151 = some (.rxPush 0x51) ∧
  decodeTableWord 16 0x200 = some .validate ∧ decodeTableWord 16 0x381 = some (.encode 0x81) ∧
  decodeTableWord 16 0x481 = some (.query 0x81) ∧ decodeTableWord 16 0x500 = some .openT ∧
  decodeTableWord 16 0x600 = some .closeT ∧ decodeTableWord 16 0x700 = none ∧
  decodeTableWord 8 1 = some (.setSettle 0) ∧ decodeTableWord 8 0 = some .getSettle ∧
  decodeTableWord 32 0x510181D3 = some (.cmdFrame 0x01 0x81 0xD3) ∧ decodeTableWord 32 0x510181D4 = none ∧
  decodeTableWord 48 0x51030600207A = some (.rspFrame 0x20 0x7A)

/-! ## The step -/

/-- A step performs the operation that the host's next word decodes to, on the state with that word taken off. -/
def Obligations.StepRunsTheDecodedOperation : Prop :=
  ∀ (s : State) (w : InputWord) (rest : List InputWord) (i : Instr),
    s.host = w :: rest → decode s.cfg w.port = .ok i → step s = exec i { s with host := rest }

/-- With no operation issued the block waits; so it does right after reset (R251). -/
def Obligations.StepWaitsForTheHost : Prop :=
  (∀ s : State, s.host = [] → step s = .next s) ∧ step State.reset = .next State.reset

/-- The block decodes no command frame and puts nothing on the wire but the command frame of the `QUERY` it performs: no
input word decodes to `CMD_FRAME`, and a step writes at most one frame, which is that of the address of the `QUERY` it was
asked for, so that nothing is written between exchanges (R93, R175, R89). -/
def Obligations.CommandFramesAreOutputOnly : Prop :=
  (∀ (c : Config) (w : InputWord) (len a k : Byte), decode c w.port ≠ .ok (.cmdFrame len a k)) ∧
  ∀ s t : State, step s = .next t → ∃ new : List Event, t.events = s.events ++ new ∧
    (framesWritten new = [] ∨
      ∃ (a : Byte) (rest : List InputWord), s.host = .hop (0b100#3 ++ a) :: rest ∧
        framesWritten new = [commandFrame s.cfg a])

/-- R91: whatever bytes stand on the response wire, the step completes: they become the capture, an invalid one does not
trap, and the answer is the whole verdict of `validate`.  (That such a word is a step of its own is the model's choice, log
entry 9; that the bytes are taken as a capture whether or not they decode is log entry 10.) -/
def Obligations.AnyCaptureOnTheResponseWireIsValidated : Prop :=
  ∀ (s : State) (bytes : List Byte) (rest : List InputWord), s.cfg.SpecSizes → s.host = .rf bytes :: rest →
    ∃ cap : Capture, cap.Holds bytes ∧
      step s = .next { s with
        host := rest
        capture := cap
        answer := .verdict { result := (validate s.cfg bytes).payload, valid := (validate s.cfg bytes).valid,
                             payload := (validate s.cfg bytes).payload.getD 0x00, fail := (validate s.cfg bytes).fail } } ∧
      ((validate s.cfg bytes).valid = false → (validate s.cfg bytes).payload = none)

/-! ## The checksum unit -/

/-- R110. -/
def Obligations.ChecksumIsTheSumModulo256 : Prop :=
  ∀ s : List Byte, (sum8 s).toNat = (s.map fun b => b.toNat).sum % 256

/-- An accumulator that wraps on every addition gives the same value (R111); the sum does not depend on the order of the
bytes, and the sum of a concatenation is the sum of the sums (R113). -/
def Obligations.ChecksumLaws : Prop :=
  (∀ s : List Byte, s.foldl (· + ·) 0 = sum8 s) ∧
  (∀ s t : List Byte, s.Perm t → sum8 s = sum8 t) ∧
  ∀ s t : List Byte, sum8 (s ++ t) = sum8 s + sum8 t

/-- A change of exactly one byte changes the checksum (R114). -/
def Obligations.ChecksumSeesASingleByteChange : Prop :=
  ∀ (pre post : List Byte) (b b' : Byte), b ≠ b' → sum8 (pre ++ b :: post) ≠ sum8 (pre ++ b' :: post)

/-! ## The validation function -/

/-- R130: the six rules in order.  `fail` is the number of the first that fails, and 0 if none does; only then is there
a payload, byte 4. -/
def Obligations.ValidationFollowsTheSixRules : Prop :=
  ∀ (c : Config) (s : List Byte), c.SpecSizes →
    (validate c s).fail =
      (if s.length ≠ 6 then 1
       else if s[0]? ≠ some c.marker then 2
       else if s[1]? ≠ some c.rspLenField then 3
       else if s[2]? ≠ some c.rspStatusOk then 4
       else if s[3]? ≠ some c.rspReserved then 5
       else if s[5]? ≠ some (sum8 (s.take 5)) then 6
       else 0) ∧
    ((validate c s).valid = true ↔ (validate c s).fail = 0) ∧
    (validate c s).payload = (if (validate c s).valid then s[4]? else none)

/-- The accepted set: `51 03 06 00 pp cc` with `cc = 0x5A + pp`, and the payload is `pp` (R133, R84). -/
def Obligations.AcceptedCapturesAreThe256Frames : Prop :=
  ∀ (s : List Byte) (p : Byte),
    (validate specConfig s).payload = some p ↔ s = [0x51, 0x03, 0x06, 0x00, p, 0x5A + p]

/-- A valid capture with exactly one byte changed is invalid (R134). -/
def Obligations.SingleByteMutationIsInvalid : Prop :=
  ∀ (c : Config) (pre post : List Byte) (b b' : Byte), c.SpecSizes → b ≠ b' →
    (validate c (pre ++ b :: post)).valid = true → (validate c (pre ++ b' :: post)).valid = false

/-- R135: whatever command was encoded, the ideal response for payload `p` validates and yields `p`. -/
def Obligations.IdealResponseValidates : Prop :=
  ∀ (s : State) (a p : Byte), s.cfg.SpecSizes → ∃ t : State, exec (.encode a) s = .next t ∧
    validate t.cfg [t.cfg.marker, t.cfg.rspLenField, t.cfg.rspStatusOk, t.cfg.rspReserved, p,
        sum8 [t.cfg.marker, t.cfg.rspLenField, t.cfg.rspStatusOk, t.cfg.rspReserved, p]]
      = { valid := true, payload := some p, fail := 0 }

/-- The undetected corruptions of a valid frame are exactly those that move payload and checksum by the same amount (R115). -/
def Obligations.UndetectedCorruptionsMovePayloadAndChecksumTogether : Prop :=
  ∀ (c : Config) (s s' : List Byte) (p p' : Byte), c.SpecSizes → (validate c s).payload = some p →
    ((validate c s').payload = some p' ↔
      ∃ b0 b1 b2 b3 k d, s = [b0, b1, b2, b3, p, k] ∧ p' = p + d ∧ s' = [b0, b1, b2, b3, p + d, k + d])

/-- The outputs agree with each other whatever the capture registers hold: `FAIL` is 0 exactly when `VALID` is 1 and is
never 7, `RESULT` is the payload where `VALID` is 1 and absent otherwise, `PAYLOAD` is then the filler, and `VALID` needs
`RXCNT = 6` (R27, R40, R225). -/
def Obligations.OutputsAgreeWithEachOther : Prop :=
  ∀ (cfg : Config) (c : Capture) (v : Verdict), cfg.SpecSizes → outputs cfg c = some v →
    v.Consistent ∧ (v.valid = true → c.cnt = 6)

/-! ## The parser -/

/-- R140, with its encoding; on an empty capture it changes nothing. -/
def Obligations.RxClearEmptiesTheCapture : Prop :=
  ∀ (s : State) (x : Byte), ∃ cap : Capture,
    decode s.cfg (.hop (0b000#3 ++ x)) = .ok .rxClear ∧
    exec .rxClear s = .next { s with capture := cap, answer := .done } ∧
    cap.cnt = 0 ∧ (∀ i : Fin 6, cap.buf[i.val] = none) ∧
    (s.cfg.SpecSizes → outputs s.cfg cap = some { result := none, valid := false, payload := 0x00, fail := 1 }) ∧
    (s.capture.Holds [] → cap = s.capture)

/-- R141, with its encoding: the byte goes to `RXBUF[RXCNT]` while `RXCNT` is below 6, `RXCNT` counts up and saturates at 7, every other
capture register keeps what it holds; at 7 a push changes nothing at all in the capture, and only the sixth push can make `VALID` 1. -/
def Obligations.RxPushAppendsOneByte : Prop :=
  ∀ (s : State) (b : Byte), ∃ cap : Capture,
    decode s.cfg (.hop (0b001#3 ++ b)) = .ok (.rxPush b) ∧
    exec (.rxPush b) s = .next { s with capture := cap, answer := .done } ∧
    cap.cnt.toNat = (if s.capture.cnt.toNat < 7 then s.capture.cnt.toNat + 1 else s.capture.cnt.toNat) ∧
    (∀ i : Fin 6, cap.buf[i.val] =
      if s.capture.cnt.toNat < 6 ∧ i.val = s.capture.cnt.toNat then some b else s.capture.buf[i.val]) ∧
    (s.capture.cnt = 7 → cap = s.capture) ∧
    (∀ v, s.cfg.SpecSizes → outputs s.cfg cap = some v → v.valid = true → s.capture.cnt = 5)

/-- R143, with its encoding: `VALIDATE` returns the verdict of the bytes the registers hold, and changes nothing else;
with `RXCNT` other than 6 it reads no register and answers rule 1's failure. -/
def Obligations.ValidateReportsTheVerdictOfTheCapture : Prop :=
  (∀ (c : Config) (x : Byte), decode c (.hop (0b010#3 ++ x)) = .ok .validate) ∧
  (∀ s : State, s.cfg.SpecSizes → s.capture.cnt ≠ 6 →
    exec .validate s =
      .next { s with answer := .verdict { result := none, valid := false, payload := 0x00, fail := 1 } }) ∧
  ∀ (s : State) (bytes : List Byte), s.cfg.SpecSizes → s.capture.Holds bytes →
    exec .validate s = .next { s with
      answer := .verdict { result := (validate s.cfg bytes).payload, valid := (validate s.cfg bytes).valid,
                           payload := (validate s.cfg bytes).payload.getD 0x00, fail := (validate s.cfg bytes).fail } }

/-- The one fault: six bytes are counted but a register holds no value (R24, R233); no state of the invariant is such. -/
def Obligations.ValidateFaultsExactlyOnAnUnwrittenRegister : Prop :=
  ∀ s : State, s.cfg.SpecSizes →
    (exec .validate s = .fault .unwrittenCapture ↔
      s.capture.cnt = 6 ∧ ∃ i : Fin 6, s.capture.buf[i.val] = none) ∧
    (s.capture.Wf → exec .validate s ≠ .fault .unwrittenCapture)

/-- The two layers are equal: `CHECK bytes` returns the verdict of `validate bytes`, for every byte sequence and from
every state with the sizes of R7 (R144). -/
def Obligations.CheckIsTheValidationFunction : Prop :=
  ∀ (s : State) (bytes : List Byte), s.cfg.SpecSizes → ∃ cap : Capture, cap.Holds bytes ∧
    execAll (check bytes) s = .next { s with
      capture := cap
      answer := .verdict { result := (validate s.cfg bytes).payload, valid := (validate s.cfg bytes).valid,
                           payload := (validate s.cfg bytes).payload.getD 0x00, fail := (validate s.cfg bytes).fail } }

/-! ## The encoder and the wire frames -/

/-- R120, with its encoding: the four bytes, for every address; no other state is written, and it cannot fail. -/
def Obligations.EncodeReturnsTheCommandFrame : Prop :=
  ∀ (s : State) (a : Byte), s.cfg.SpecSizes →
    decode s.cfg (.hop (0b011#3 ++ a)) = .ok (.encode a) ∧
    exec (.encode a) s = .next { s with
      answer := .frame [s.cfg.cmdMarker, s.cfg.cmdLenField, a, s.cfg.cmdMarker + s.cfg.cmdLenField + a] }

/-- R124. -/
def Obligations.EncodedFramesEndInTheirChecksum : Prop :=
  ∀ (s : State) (a : Byte), s.cfg.SpecSizes → ∃ f : List Byte,
    exec (.encode a) s = .next { s with answer := .frame f } ∧
    f.length = 4 ∧ f.getLast? = some (sum8 (f.take 3))

/-- Frames of different addresses differ in byte 2 and in byte 3 (R121); the address is read back from byte 2 (R123). -/
def Obligations.EncodedFramesDetermineTheAddress : Prop :=
  ∀ (c : Config) (a b : Byte), c.SpecSizes →
    (commandFrame c a)[2]? = some a ∧
    (a ≠ b → (commandFrame c a)[2]? ≠ (commandFrame c b)[2]? ∧ (commandFrame c a)[3]? ≠ (commandFrame c b)[3]?)

/-- `CMD_FRAME` is performed by the exchange at its address, the only operation that puts a command frame on the wire (R93,
R175; log entry 8): a command frame of this block completes, as `QUERY` at that address does, and writes its own four bytes if
the open and the write succeed and nothing otherwise (R163); bytes that are no command frame of this block (R92) are refused. -/
def Obligations.CmdFrameIsWrittenByItsExchange : Prop :=
  ∀ (s : State) (len a k : Byte), s.cfg.SpecSizes →
    (len = s.cfg.cmdLenField ∧ k = s.cfg.cmdMarker + len + a →
      ∃ (t : State) (new : List Event),
        exec (.cmdFrame len a k) s = .next t ∧ exec (.query a) s = .next t ∧ t.events = s.events ++ new ∧
        framesWritten new =
          (if (s.isOpen = true ∨ s.nextDraw.openOk = true) ∧ s.nextDraw.writeOk = true then [[s.cfg.cmdMarker, len, a, k]]
           else [])) ∧
    (¬(len = s.cfg.cmdLenField ∧ k = s.cfg.cmdMarker + len + a) →
      exec (.cmdFrame len a k) s = .refused .notCommandFrame)

/-- `RSP_FRAME` as an operation (the model's choice, log entry 9): the six bytes become the capture, and the verdict is
the payload if the checksum byte is right and rule 6's failure otherwise (R130). -/
def Obligations.RspFrameIsCapturedAndValidated : Prop :=
  ∀ (s : State) (p k : Byte), s.cfg.SpecSizes → ∃ cap : Capture,
    cap.Holds [s.cfg.marker, s.cfg.rspLenField, s.cfg.rspStatusOk, s.cfg.rspReserved, p, k] ∧
    exec (.rspFrame p k) s = .next { s with
      capture := cap
      answer := .verdict
        (if k = s.cfg.marker + s.cfg.rspLenField + s.cfg.rspStatusOk + s.cfg.rspReserved + p then
          { result := some p, valid := true, payload := p, fail := 0 }
        else { result := none, valid := false, payload := 0x00, fail := 6 }) }

/-! ## The register exchange -/

/-- R160 with the event record of R167: the five steps and the three ways to FAILED.  `bytes` is what the read returns
and `left` what it leaves in the queue.  (That the bytes arrived before the first transport call join the queue there, and
that a real open carries its delay, is the model's record, log entries 12 and 13.) -/
def Obligations.QueryFollowsItsFiveSteps : Prop :=
  ∀ (s : State) (a : Byte), s.cfg.SpecSizes →
    (∀ bytes left : List Byte, s.isOpen = true ∨ s.nextDraw.openOk = true → s.nextDraw.writeOk = true →
      (s.nextDraw.read = .other bytes left ∨
        s.nextDraw.read = .queued ∧ bytes = s.rxQueue ++ s.nextDraw.early ++ s.nextDraw.late ∧ left = []) →
      ∃ cap : Capture, cap.Holds bytes ∧
        exec (.query a) s = .next { s with
          capture := cap
          isOpen := true
          rxQueue := left
          answer := .result (validate s.cfg bytes).payload
          events := s.events ++ (if s.isOpen then [] else [.opened s.cfg.tOpen])
            ++ [.wrote [s.cfg.cmdMarker, s.cfg.cmdLenField, a, s.cfg.cmdMarker + s.cfg.cmdLenField + a],
                .waited s.tSettle, .read bytes, .returned (validate s.cfg bytes).payload]
          env := s.env.tail
          drawIndex := s.drawIndex + 1 }) ∧
    (s.isOpen = false → s.nextDraw.openOk = false →
      ∃ cap : Capture, cap.Holds [] ∧
        exec (.query a) s = .next { s with
          capture := cap
          rxQueue := s.rxQueue ++ s.nextDraw.early
          answer := .result none
          events := s.events ++ [.transportFailed .openCall, .returned none]
          env := s.env.tail
          drawIndex := s.drawIndex + 1 }) ∧
    (s.isOpen = true ∨ s.nextDraw.openOk = true → s.nextDraw.writeOk = false →
      ∃ cap : Capture, cap.Holds [] ∧
        exec (.query a) s = .next { s with
          capture := cap
          isOpen := true
          rxQueue := s.rxQueue ++ s.nextDraw.early
          answer := .result none
          events := s.events ++ (if s.isOpen then [] else [.opened s.cfg.tOpen])
            ++ [.transportFailed .writeCall, .returned none]
          env := s.env.tail
          drawIndex := s.drawIndex + 1 }) ∧
    (∀ left : List Byte, s.isOpen = true ∨ s.nextDraw.openOk = true → s.nextDraw.writeOk = true →
      s.nextDraw.read = .error left →
      ∃ cap : Capture, cap.Holds [] ∧
        exec (.query a) s = .next { s with
          capture := cap
          isOpen := true
          rxQueue := left
          answer := .result none
          events := s.events ++ (if s.isOpen then [] else [.opened s.cfg.tOpen])
            ++ [.wrote [s.cfg.cmdMarker, s.cfg.cmdLenField, a, s.cfg.cmdMarker + s.cfg.cmdLenField + a],
                .waited s.tSettle, .transportFailed .readCall, .returned none]
          env := s.env.tail
          drawIndex := s.drawIndex + 1 })

/-- `QUERY` completes in every state and whatever the environment does, with an `Option<byte>` that is the `RESULT` output
of the capture it leaves (R160, R162, R163); it leaves the configuration, `T_SETTLE` and the host's list alone. -/
def Obligations.QueryAlwaysReturnsTheResultOutput : Prop :=
  ∀ (s : State) (a : Byte), ∃ (t : State) (v : Verdict),
    exec (.query a) s = .next t ∧ t.capture.Wf ∧ outputs t.cfg t.capture = some v ∧ t.answer = .result v.result ∧
    t.cfg = s.cfg ∧ t.tSettle = s.tSettle ∧ t.host = s.host

/-- One exchange writes at most one frame, which is the command frame of its address (R164), and reads at most once (R162). -/
def Obligations.QueryWritesAndReadsAtMostOnce : Prop :=
  ∀ (s : State) (a : Byte), ∃ (t : State) (new : List Event),
    exec (.query a) s = .next t ∧ t.events = s.events ++ new ∧
    (framesWritten new = [] ∨ framesWritten new = [commandFrame s.cfg a]) ∧
    (∀ before bytes after, new = before ++ .read bytes :: after →
      (∀ bytes', .read bytes' ∉ before) ∧ (∀ bytes', .read bytes' ∉ after))

/-- The caller cannot tell a transport error from a framing error: both give absent; and the capture and so the outputs
after a transport error are those of a silent module (R221, R223). -/
def Obligations.TransportErrorsLookLikeFramingErrors : Prop :=
  ∀ (s : State) (a : Byte) (bytes left : List Byte) (d : Draw), s.cfg.SpecSizes →
    (s.isOpen = false ∧ s.nextDraw.openOk = false ∨ s.nextDraw.writeOk = false ∨
      ∃ left', s.nextDraw.read = .error left') →
    d.openOk = true → d.writeOk = true → d.read = .other bytes left → (validate s.cfg bytes).valid = false →
    ∃ t t' : State,
      exec (.query a) s = .next t ∧ exec (.query a) { s with env := d :: s.env.tail } = .next t' ∧
      t.answer = .result none ∧ t'.answer = .result none ∧ (bytes = [] → t.capture = t'.capture)

/-- A failure is not sticky: what an exchange returns and leaves in the capture does not depend on the capture, the last
answer or the history it found (R231). -/
def Obligations.QueryForgetsEarlierCapturesAndFailures : Prop :=
  ∀ (s : State) (a : Byte) (cap : Capture) (ans : Answer) (es : List Event), ∃ t t' : State,
    exec (.query a) s = .next t ∧
    exec (.query a) { s with capture := cap, answer := ans, events := es } = .next t' ∧
    t.answer = t'.answer ∧ t.capture = t'.capture ∧ t.isOpen = t'.isOpen ∧ t.rxQueue = t'.rxQueue

/-- The environment contract: under P1 (no transport call fails), P2 (the queue is empty when the command is written), P3
and P4 (the module sends exactly the ideal response for the value `p` it holds, in time) and P5 (the transport delivers
the queue unchanged), `QUERY` returns that value (R166). -/
def Obligations.QueryReturnsTheModulesValueUnderTheContract : Prop :=
  ∀ (s : State) (a p : Byte), s.cfg.SpecSizes →
    s.isOpen = true ∨ s.nextDraw.openOk = true → s.nextDraw.writeOk = true →
    s.rxQueue = [] → s.nextDraw.early = [] → s.nextDraw.late = idealResponse s.cfg p → s.nextDraw.read = .queued →
    ∃ t : State, exec (.query a) s = .next t ∧ t.answer = .result (some p)

/-- The stale response: the answer to the first command arrives after the first read and is taken for the answer to the
second; had the second answer arrived as well, the capture of twelve bytes would be invalid and the queue clean (R258). -/
def Obligations.ALateResponseAnswersTheNextQuery : Prop :=
  ∀ (s : State) (a b p q : Byte) (d1 d2 : Draw) (rest : List Draw), s.cfg.SpecSizes →
    s.env = d1 :: d2 :: rest → s.isOpen = true → s.rxQueue = [] →
    d1.writeOk = true → d1.early = [] → d1.late = [] → d1.read = .queued →
    d2.writeOk = true → d2.early = idealResponse s.cfg p → d2.read = .queued →
    (d2.late = [] →
      ∃ t : State, execAll [.query a, .query b] s = .next t ∧ t.answer = .result (some p) ∧ t.rxQueue = []) ∧
    (d2.late = idealResponse s.cfg q →
      ∃ t : State, execAll [.query a, .query b] s = .next t ∧ t.answer = .result none ∧ t.rxQueue = [])

/-! ## The transport and the settle delay -/

/-- R170: a no-op where the transport is open; else it opens and pays `T_OPEN`, or reports the error with `OPEN` still 0. -/
def Obligations.OpenOpensAClosedTransport : Prop :=
  ∀ s : State,
    (s.isOpen = true → exec .openT s = .next { s with answer := .done }) ∧
    (s.isOpen = false → s.nextDraw.openOk = true →
      exec .openT s = .next { s with
        isOpen := true
        rxQueue := s.rxQueue ++ s.nextDraw.early
        answer := .done
        events := s.events ++ [.opened s.cfg.tOpen]
        env := s.env.tail
        drawIndex := s.drawIndex + 1 }) ∧
    (s.isOpen = false → s.nextDraw.openOk = false →
      exec .openT s = .next { s with
        rxQueue := s.rxQueue ++ s.nextDraw.early
        answer := .transportError
        events := s.events ++ [.transportFailed .openCall]
        env := s.env.tail
        drawIndex := s.drawIndex + 1 })

/-- R171: `OPEN` becomes 0 and `T_CLOSE` is waited; where the transport is closed already nothing is done. -/
def Obligations.CloseClosesTheTransport : Prop :=
  ∀ s : State,
    (s.isOpen = true → exec .closeT s = .next { s with
      isOpen := false
      answer := .done
      events := s.events ++ [.closed s.cfg.tClose] }) ∧
    (s.isOpen = false → exec .closeT s = .next { s with answer := .done })

/-- No operation but `CLOSE` closes the transport, and none but `OPEN` and the exchange (`QUERY`, or `CMD_FRAME`, which the
exchange performs) opens it; so a step closes it only if the host issued `CLOSE`, and opens it only if the host issued `OPEN`
or `QUERY` (R32, R165). -/
def Obligations.OnlyCloseClosesAndOnlyOpenAndQueryOpen : Prop :=
  (∀ (i : Instr) (s t : State), exec i s = .next t →
    (s.isOpen = true → t.isOpen = false → i = .closeT) ∧
    (s.isOpen = false → t.isOpen = true → i = .openT ∨ (∃ a, i = .query a) ∨ ∃ len a k, i = .cmdFrame len a k)) ∧
  ∀ s t : State, step s = .next t →
    (s.isOpen = true → t.isOpen = false → ∃ (x : Byte) (rest : List InputWord), s.host = .hop (0b110#3 ++ x) :: rest) ∧
    (s.isOpen = false → t.isOpen = true →
      ∃ (x : Byte) (rest : List InputWord), s.host = .hop (0b101#3 ++ x) :: rest ∨ s.host = .hop (0b100#3 ++ x) :: rest)

/-- R176, with its encoding: any delay is accepted, nothing else changes, and the next `QUERY` waits it. -/
def Obligations.SetSettleSetsTheDelay : Prop :=
  ∀ (s : State) (d : Duration),
    decode s.cfg (.cfg 1#1 d) = .ok (.setSettle d) ∧
    exec (.setSettle d) s = .next { s with tSettle := d, answer := .done } ∧
    ∀ a : Byte, ∃ (t : State) (new : List Event), execAll [.setSettle d, .query a] s = .next t ∧
      t.events = s.events ++ new ∧ ∀ d', .waited d' ∈ new → d' = d

/-- R177, with its encoding. -/
def Obligations.GetSettleReturnsTheDelay : Prop :=
  ∀ (s : State) (d : Duration), decode s.cfg (.cfg 0#1 d) = .ok .getSettle ∧
    exec .getSettle s = .next { s with answer := .settle s.tSettle }

/-- `T_SETTLE` keeps whatever was last set: no step but one that performs `SET_SETTLE` changes it (R31, R252). -/
def Obligations.OnlySetSettleChangesTheDelay : Prop :=
  ∀ s t : State, step s = .next t → t.tSettle ≠ s.tSettle →
    ∃ d rest, s.host = .cfg 1#1 d :: rest ∧ t.tSettle = d

/-- `VALIDATE`, `ENCODE`, `OPEN`, `CLOSE`, `SET_SETTLE` and `GET_SETTLE` leave the capture as it is (R21). -/
def Obligations.OperationsThatLeaveTheCaptureAlone : Prop :=
  ∀ (i : Instr) (s t : State), exec i s = .next t →
    (i = .validate ∨ (∃ a, i = .encode a) ∨ i = .openT ∨ i = .closeT ∨ (∃ d, i = .setSettle d) ∨ i = .getSettle) →
    t.capture = s.capture

/-! ## The consumers (environment) -/

/-- R200: a cycle whose status register is not 0x00, or was not read, gives no value in any channel; and an absent byte
takes away its own channel and no other. -/
def Obligations.StatusGatesTheCycleAndAbsenceItsChannel : Prop :=
  (∀ (addr : AddressMap) (e : Expected) (s : State),
    (readCycle addr e s).1.status ≠ some s.cfg.statusRegOk →
    (sample addr e s).1 = { humidity := none, temperature := none, value3 := none, value4 := none }) ∧
  ∀ (c : Config) (b : CycleBytes),
    decodeMeasurement c { b with humLo := none } = { decodeMeasurement c b with humidity := none } ∧
    decodeMeasurement c { b with humHi := none } = { decodeMeasurement c b with humidity := none } ∧
    decodeMeasurement c { b with tempLo := none } = { decodeMeasurement c b with temperature := none } ∧
    decodeMeasurement c { b with tempHi := none } = { decodeMeasurement c b with temperature := none } ∧
    decodeMeasurement c { b with val3Lo := none } = { decodeMeasurement c b with value3 := none } ∧
    decodeMeasurement c { b with val3Hi := none } = { decodeMeasurement c b with value3 := none } ∧
    decodeMeasurement c { b with val4Lo := none } = { decodeMeasurement c b with value4 := none } ∧
    decodeMeasurement c { b with val4Hi := none } = { decodeMeasurement c b with value4 := none }

/-- R204: one query of the capability register; all flags false where it fails, else its bits 0 to 3. -/
def Obligations.ProbeReadsTheCapabilityBits : Prop :=
  ∀ (addr : AddressMap) (s : State), ∃ (t : State) (r : Option Byte),
    exec (.query (addr.at_ .caps)) s = .next t ∧ t.answer = .result r ∧ (probe addr s).2 = t ∧
    (probe addr s).1 = { humidity := (r.getD 0).getLsbD 0, temperature := (r.getD 0).getLsbD 1,
                         airVelocity := (r.getD 0).getLsbD 2, co2 := (r.getD 0).getLsbD 3 }

/-- R205: `identify()` makes three exchanges, in the order group-low, subgroup, group-high, whose results are `gl`, `sg` and
`gh`; the frames it writes are those of the three registers in this order, all of them where no open and no write fails; and
where a result is absent the identity is the placeholder "???", while three bytes give their device-type text.  R206: a
group-high of 0x55 or 0xFF counts as 0x00. -/
def Obligations.IdentifyReadsThreeRegistersInOrder : Prop :=
  (∀ (addr : AddressMap) (s : State), ∃ (new : List Event) (gl sg gh : Option Byte),
    (identify addr s).2.events = s.events ++ new ∧
    resultsReturned new = [gl, sg, gh] ∧
    (framesWritten new).Sublist
      [commandFrame s.cfg (addr.at_ .groupLo), commandFrame s.cfg (addr.at_ .subgroup),
        commandFrame s.cfg (addr.at_ .groupHi)] ∧
    ((∀ k < 3, (s.drawAt k).openOk = true ∧ (s.drawAt k).writeOk = true) →
      framesWritten new =
        [commandFrame s.cfg (addr.at_ .groupLo), commandFrame s.cfg (addr.at_ .subgroup),
          commandFrame s.cfg (addr.at_ .groupHi)]) ∧
    (gl = none ∨ sg = none ∨ gh = none → (identify addr s).1 = ['?', '?', '?']) ∧
    ∀ x y z : Byte, gl = some x → sg = some y → gh = some z → (identify addr s).1 = deviceType x y z) ∧
  ∀ gl sg : Byte, deviceType gl sg 0x55 = deviceType gl sg 0x00 ∧ deviceType gl sg 0xFF = deviceType gl sg 0x00

/-- R194 steps 2 to 4: a sampling cycle makes one exchange for each register of each expected channel and then, always and
last, one for the status register; the frames it writes are theirs in this order, all of them where no open and no write
fails; and where the status register's result, the last, is not the success value, no channel has a value.  (The order of the
data registers among themselves is that of R195's pseudocode, which DOC0 does not fix: the model's choice, log entry 17.) -/
def Obligations.SampleQueriesTheStatusRegisterLast : Prop :=
  ∀ (addr : AddressMap) (e : Expected) (s : State), ∃ (new : List Event) (data : List (Option Byte)) (status : Option Byte),
    let dataRegisters : List RegName :=
      (if e.humidity then [.humLo, .humHi] else []) ++ (if e.temperature then [.tempLo, .tempHi] else [])
        ++ (if e.value3 then [.val3Lo, .val3Hi] else []) ++ (if e.value4 then [.val4Lo, .val4Hi] else [])
    let frames : List (List Byte) := (dataRegisters ++ [RegName.status]).map fun r => commandFrame s.cfg (addr.at_ r)
    (sample addr e s).2.events = s.events ++ new ∧
    resultsReturned new = data ++ [status] ∧ data.length = dataRegisters.length ∧
    (framesWritten new).Sublist frames ∧
    ((∀ k < dataRegisters.length + 1, (s.drawAt k).openOk = true ∧ (s.drawAt k).writeOk = true) →
      framesWritten new = frames) ∧
    (status ≠ some s.cfg.statusRegOk →
      (sample addr e s).1 = { humidity := none, temperature := none, value3 := none, value4 := none })

/-- R194 step 2 and R210: in the first cycle of a driver that probes, the capability register is queried first, and its result
decides which channels are queried after it: in the simpler mode humidity and temperature always, and a generic channel only
if the bit of its quantity (a parameter, R199, log entry 17) is 1; a driver informed by CapabilitySet queries humidity and
temperature by their bits too; and one that does not probe queries humidity and temperature (R210).  (That a driver without a probe
never queries the generic channels, and the order of the data registers, are the model's choice, log entry 17, DESIGN
CHOICE.) -/
def Obligations.FirstSampleQueriesTheIndicatedChannels : Prop :=
  ∀ (mode : SamplingMode) (g : GenericChannels) (addr : AddressMap) (s : State),
    (∀ k < 10, (s.drawAt k).openOk = true ∧ (s.drawAt k).writeOk = true) →
    ∃ (new : List Event) (first : Option Byte) (rest : List (Option Byte)),
      (firstSample mode g addr s).2.events = s.events ++ new ∧ resultsReturned new = first :: rest ∧
      framesWritten new =
        (let bit (k : Nat) : Bool := (first.getD 0x00).getLsbD k
         let present (q : OptionalQuantity) : Bool := bit (if q = .airVelocity then 2 else 3)
         let generic : List RegName :=
          (if present g.value3 then [.val3Lo, .val3Hi] else []) ++ (if present g.value4 then [.val4Lo, .val4Hi] else [])
         let registers : List RegName :=
          match mode with
          | .probed =>
            [.caps] ++ (if bit 0 then [.humLo, .humHi] else []) ++ (if bit 1 then [.tempLo, .tempHi] else []) ++ generic
          | .simple => [.caps, .humLo, .humHi, .tempLo, .tempHi] ++ generic
          | .unprobed => [.humLo, .humHi, .tempLo, .tempHi]
         (registers ++ [RegName.status]).map fun r => commandFrame s.cfg (addr.at_ r))

/-- R192 and R207: the device identity is one string, laid out from the manufacturer constant, the string of `identify()`, the
placeholder twice and the port identifier, whatever the layout and the constant, which are parameters (log entry 17); and it
is recomputed on every access: the second access queries the module again. -/
def Obligations.DeviceIdentityIsRecomputedOnEveryAccess : Prop :=
  ∀ (format : IdentityFormat) (port : Text) (addr : AddressMap) (s : State),
    (deviceIdentity format port addr s).1 = format.layout
      { manufacturer := format.manufacturer, deviceType := (identify addr s).1,
        firmwareVersion := ['?', '?', '?'], serialNumber := ['?', '?', '?'], port := port } ∧
    ∃ (t : State) (new : List Event) (gl sg gh : Option Byte),
      t = (deviceIdentity format port addr s).2 ∧
      (deviceIdentity format port addr t).2.events = t.events ++ new ∧ resultsReturned new = [gl, sg, gh] ∧
      (deviceIdentity format port addr t).1 = format.layout
        { manufacturer := format.manufacturer, deviceType := decodeIdentity gl sg gh,
          firmwareVersion := ['?', '?', '?'], serialNumber := ['?', '?', '?'], port := port }
end

