-- ==== Sys2Proof/Laws/Frames.lean ====
section
/-! SUPPORT. The checksum as a sum of bytes on an accumulator that wraps (spec/40_checksum.md R111), and the two
frames under the sizes of spec/00_scope.md R7. -/

namespace Sys2Proof.Machine

/-- Truncation to 256 is what a byte does by itself. -/
theorem sum8_eq (s : List Byte) : sum8 s = BitVec.ofNat 8 (byteSum s) := by
  apply BitVec.eq_of_toNat_eq
  simp [sum8, truncatedSum]

theorem frameChecksum_eq_sum8 {c : Config} (h : c.cksModulus = 256) (s : List Byte) : frameChecksum c s = sum8 s := by
  rw [frameChecksum, h, sum8]

theorem sum8_cons (b : Byte) (s : List Byte) : sum8 (b :: s) = b + sum8 s := by
  simp [sum8_eq, byteSum, BitVec.ofNat_add]

/-- The sum of three bytes. -/
theorem sum8_three (x y z : Byte) : sum8 [x, y, z] = x + y + z := by
  simp [sum8_cons, BitVec.add_assoc, show sum8 [] = 0 from rfl]

/-- The sum of five bytes. -/
theorem sum8_five (v w x y z : Byte) : sum8 [v, w, x, y, z] = v + w + x + y + z := by
  simp [sum8_cons, BitVec.add_assoc, show sum8 [] = 0 from rfl]

/-- The four bytes of a command frame (R81). -/
theorem commandFrame_eq {c : Config} (h : c.SpecSizes) (a : Byte) :
    commandFrame c a = [c.cmdMarker, c.cmdLenField, a, c.cmdMarker + c.cmdLenField + a] := by
  obtain ⟨-, -, -, h4, h5⟩ := h
  simp [commandFrame, sealCommand, h4, frameChecksum_eq_sum8 h5, sum8_three]

/-- The six bytes of a response frame (R83). -/
theorem responseBytes_eq {c : Config} (h : c.SpecSizes) (p k : Byte) :
    responseBytes c p k = [c.marker, c.rspLenField, c.rspStatusOk, c.rspReserved, p, k] := by
  obtain ⟨h1, h2, h3, -⟩ := h
  simp [responseBytes, responseBody, responseHeader, h1, h2, h3]

/-- The checksum of a response frame (R83). -/
theorem responseChecksum_eq {c : Config} (h : c.SpecSizes) (p : Byte) :
    responseChecksum c p = c.marker + c.rspLenField + c.rspStatusOk + c.rspReserved + p := by
  obtain ⟨-, h2, h3, -, h5⟩ := h
  simp [responseChecksum, responseBody, responseHeader, h2, h3, frameChecksum_eq_sum8 h5, sum8_five]

/-- Rules 1 to 5 on six bytes. -/
theorem structuralFailure_six {c : Config} (hc : c.SpecSizes) (b0 b1 b2 b3 b4 b5 : Byte) :
    structuralFailure c [b0, b1, b2, b3, b4, b5] =
      if b0 ≠ c.marker then some 2
      else if b1 ≠ c.rspLenField then some 3
      else if b2 ≠ c.rspStatusOk then some 4
      else if b3 ≠ c.rspReserved then some 5
      else none := by
  obtain ⟨h1, -⟩ := hc
  simp [structuralFailure, h1]

/-- A structurally correct capture is the response frame of its payload and its checksum byte (R92). -/
theorem structuralFailure_eq_none {c : Config} (hc : c.SpecSizes) {bytes : List Byte} (h : structuralFailure c bytes = none) :
    ∃ p k, bytes = responseBytes c p k := by
  simp only [responseBytes_eq hc]
  by_cases l : bytes.length = 6
  · match bytes, l with
    | [b0, b1, b2, b3, b4, b5], _ =>
      rw [structuralFailure_six hc] at h
      split_ifs at h
      simp_all
  · simp [structuralFailure, hc.1, l] at h

end Sys2Proof.Machine
end

