-- ==== Sys2Proof/Laws/State.lean ====
section
/-! SUPPORT. The small lemmas of the state: one for each field and each update, and one for each field of reset. -/

namespace Sys2Proof.Machine

variable (s : State)

@[simp] theorem State.withCapture_cfg (c : Capture) : (s.withCapture c).cfg = s.cfg := rfl
@[simp] theorem State.withCapture_capture (c : Capture) : (s.withCapture c).capture = c := rfl
@[simp] theorem State.withCapture_isOpen (c : Capture) : (s.withCapture c).isOpen = s.isOpen := rfl
@[simp] theorem State.withCapture_tSettle (c : Capture) : (s.withCapture c).tSettle = s.tSettle := rfl
@[simp] theorem State.withCapture_rxQueue (c : Capture) : (s.withCapture c).rxQueue = s.rxQueue := rfl
@[simp] theorem State.withCapture_answer (c : Capture) : (s.withCapture c).answer = s.answer := rfl
@[simp] theorem State.withCapture_events (c : Capture) : (s.withCapture c).events = s.events := rfl
@[simp] theorem State.withCapture_host (c : Capture) : (s.withCapture c).host = s.host := rfl
@[simp] theorem State.withCapture_env (c : Capture) : (s.withCapture c).env = s.env := rfl
@[simp] theorem State.withCapture_drawIndex (c : Capture) : (s.withCapture c).drawIndex = s.drawIndex := rfl

@[simp] theorem State.withOpen_cfg (b : Bool) : (s.withOpen b).cfg = s.cfg := rfl
@[simp] theorem State.withOpen_capture (b : Bool) : (s.withOpen b).capture = s.capture := rfl
@[simp] theorem State.withOpen_isOpen (b : Bool) : (s.withOpen b).isOpen = b := rfl
@[simp] theorem State.withOpen_tSettle (b : Bool) : (s.withOpen b).tSettle = s.tSettle := rfl
@[simp] theorem State.withOpen_rxQueue (b : Bool) : (s.withOpen b).rxQueue = s.rxQueue := rfl
@[simp] theorem State.withOpen_answer (b : Bool) : (s.withOpen b).answer = s.answer := rfl
@[simp] theorem State.withOpen_events (b : Bool) : (s.withOpen b).events = s.events := rfl
@[simp] theorem State.withOpen_host (b : Bool) : (s.withOpen b).host = s.host := rfl
@[simp] theorem State.withOpen_env (b : Bool) : (s.withOpen b).env = s.env := rfl
@[simp] theorem State.withOpen_drawIndex (b : Bool) : (s.withOpen b).drawIndex = s.drawIndex := rfl

@[simp] theorem State.withSettle_cfg (d : Duration) : (s.withSettle d).cfg = s.cfg := rfl
@[simp] theorem State.withSettle_capture (d : Duration) : (s.withSettle d).capture = s.capture := rfl
@[simp] theorem State.withSettle_isOpen (d : Duration) : (s.withSettle d).isOpen = s.isOpen := rfl
@[simp] theorem State.withSettle_tSettle (d : Duration) : (s.withSettle d).tSettle = d := rfl
@[simp] theorem State.withSettle_rxQueue (d : Duration) : (s.withSettle d).rxQueue = s.rxQueue := rfl
@[simp] theorem State.withSettle_answer (d : Duration) : (s.withSettle d).answer = s.answer := rfl
@[simp] theorem State.withSettle_events (d : Duration) : (s.withSettle d).events = s.events := rfl
@[simp] theorem State.withSettle_host (d : Duration) : (s.withSettle d).host = s.host := rfl
@[simp] theorem State.withSettle_env (d : Duration) : (s.withSettle d).env = s.env := rfl
@[simp] theorem State.withSettle_drawIndex (d : Duration) : (s.withSettle d).drawIndex = s.drawIndex := rfl

@[simp] theorem State.withQueue_cfg (q : List Byte) : (s.withQueue q).cfg = s.cfg := rfl
@[simp] theorem State.withQueue_capture (q : List Byte) : (s.withQueue q).capture = s.capture := rfl
@[simp] theorem State.withQueue_isOpen (q : List Byte) : (s.withQueue q).isOpen = s.isOpen := rfl
@[simp] theorem State.withQueue_tSettle (q : List Byte) : (s.withQueue q).tSettle = s.tSettle := rfl
@[simp] theorem State.withQueue_rxQueue (q : List Byte) : (s.withQueue q).rxQueue = q := rfl
@[simp] theorem State.withQueue_answer (q : List Byte) : (s.withQueue q).answer = s.answer := rfl
@[simp] theorem State.withQueue_events (q : List Byte) : (s.withQueue q).events = s.events := rfl
@[simp] theorem State.withQueue_host (q : List Byte) : (s.withQueue q).host = s.host := rfl
@[simp] theorem State.withQueue_env (q : List Byte) : (s.withQueue q).env = s.env := rfl
@[simp] theorem State.withQueue_drawIndex (q : List Byte) : (s.withQueue q).drawIndex = s.drawIndex := rfl

@[simp] theorem State.withAnswer_cfg (a : Answer) : (s.withAnswer a).cfg = s.cfg := rfl
@[simp] theorem State.withAnswer_capture (a : Answer) : (s.withAnswer a).capture = s.capture := rfl
@[simp] theorem State.withAnswer_isOpen (a : Answer) : (s.withAnswer a).isOpen = s.isOpen := rfl
@[simp] theorem State.withAnswer_tSettle (a : Answer) : (s.withAnswer a).tSettle = s.tSettle := rfl
@[simp] theorem State.withAnswer_rxQueue (a : Answer) : (s.withAnswer a).rxQueue = s.rxQueue := rfl
@[simp] theorem State.withAnswer_answer (a : Answer) : (s.withAnswer a).answer = a := rfl
@[simp] theorem State.withAnswer_events (a : Answer) : (s.withAnswer a).events = s.events := rfl
@[simp] theorem State.withAnswer_host (a : Answer) : (s.withAnswer a).host = s.host := rfl
@[simp] theorem State.withAnswer_env (a : Answer) : (s.withAnswer a).env = s.env := rfl
@[simp] theorem State.withAnswer_drawIndex (a : Answer) : (s.withAnswer a).drawIndex = s.drawIndex := rfl

@[simp] theorem State.withEvent_cfg (e : Event) : (s.withEvent e).cfg = s.cfg := rfl
@[simp] theorem State.withEvent_capture (e : Event) : (s.withEvent e).capture = s.capture := rfl
@[simp] theorem State.withEvent_isOpen (e : Event) : (s.withEvent e).isOpen = s.isOpen := rfl
@[simp] theorem State.withEvent_tSettle (e : Event) : (s.withEvent e).tSettle = s.tSettle := rfl
@[simp] theorem State.withEvent_rxQueue (e : Event) : (s.withEvent e).rxQueue = s.rxQueue := rfl
@[simp] theorem State.withEvent_answer (e : Event) : (s.withEvent e).answer = s.answer := rfl
@[simp] theorem State.withEvent_events (e : Event) : (s.withEvent e).events = s.events ++ [e] := rfl
@[simp] theorem State.withEvent_host (e : Event) : (s.withEvent e).host = s.host := rfl
@[simp] theorem State.withEvent_env (e : Event) : (s.withEvent e).env = s.env := rfl
@[simp] theorem State.withEvent_drawIndex (e : Event) : (s.withEvent e).drawIndex = s.drawIndex := rfl

@[simp] theorem State.withHost_cfg (h : List InputWord) : (s.withHost h).cfg = s.cfg := rfl
@[simp] theorem State.withHost_capture (h : List InputWord) : (s.withHost h).capture = s.capture := rfl
@[simp] theorem State.withHost_isOpen (h : List InputWord) : (s.withHost h).isOpen = s.isOpen := rfl
@[simp] theorem State.withHost_tSettle (h : List InputWord) : (s.withHost h).tSettle = s.tSettle := rfl
@[simp] theorem State.withHost_rxQueue (h : List InputWord) : (s.withHost h).rxQueue = s.rxQueue := rfl
@[simp] theorem State.withHost_answer (h : List InputWord) : (s.withHost h).answer = s.answer := rfl
@[simp] theorem State.withHost_events (h : List InputWord) : (s.withHost h).events = s.events := rfl
@[simp] theorem State.withHost_host (h : List InputWord) : (s.withHost h).host = h := rfl
@[simp] theorem State.withHost_env (h : List InputWord) : (s.withHost h).env = s.env := rfl
@[simp] theorem State.withHost_drawIndex (h : List InputWord) : (s.withHost h).drawIndex = s.drawIndex := rfl

@[simp] theorem State.withEnv_cfg (e : List Draw) (n : Nat) : (s.withEnv e n).cfg = s.cfg := rfl
@[simp] theorem State.withEnv_capture (e : List Draw) (n : Nat) : (s.withEnv e n).capture = s.capture := rfl
@[simp] theorem State.withEnv_isOpen (e : List Draw) (n : Nat) : (s.withEnv e n).isOpen = s.isOpen := rfl
@[simp] theorem State.withEnv_tSettle (e : List Draw) (n : Nat) : (s.withEnv e n).tSettle = s.tSettle := rfl
@[simp] theorem State.withEnv_rxQueue (e : List Draw) (n : Nat) : (s.withEnv e n).rxQueue = s.rxQueue := rfl
@[simp] theorem State.withEnv_answer (e : List Draw) (n : Nat) : (s.withEnv e n).answer = s.answer := rfl
@[simp] theorem State.withEnv_events (e : List Draw) (n : Nat) : (s.withEnv e n).events = s.events := rfl
@[simp] theorem State.withEnv_host (e : List Draw) (n : Nat) : (s.withEnv e n).host = s.host := rfl
@[simp] theorem State.withEnv_env (e : List Draw) (n : Nat) : (s.withEnv e n).env = e := rfl
@[simp] theorem State.withEnv_drawIndex (e : List Draw) (n : Nat) : (s.withEnv e n).drawIndex = n := rfl

@[simp] theorem State.resetWith_cfg (c : Config) (q : List Byte) : (State.resetWith c q).cfg = c := rfl
@[simp] theorem State.resetWith_capture (c : Config) (q : List Byte) : (State.resetWith c q).capture = Capture.empty := rfl
@[simp] theorem State.resetWith_isOpen (c : Config) (q : List Byte) : (State.resetWith c q).isOpen = false := rfl
@[simp] theorem State.resetWith_tSettle (c : Config) (q : List Byte) : (State.resetWith c q).tSettle = c.tSettleDefault := rfl
@[simp] theorem State.resetWith_rxQueue (c : Config) (q : List Byte) : (State.resetWith c q).rxQueue = q := rfl
@[simp] theorem State.resetWith_answer (c : Config) (q : List Byte) : (State.resetWith c q).answer = .nothing := rfl
@[simp] theorem State.resetWith_events (c : Config) (q : List Byte) : (State.resetWith c q).events = [] := rfl
@[simp] theorem State.resetWith_host (c : Config) (q : List Byte) : (State.resetWith c q).host = [] := rfl
@[simp] theorem State.resetWith_env (c : Config) (q : List Byte) : (State.resetWith c q).env = [] := rfl
@[simp] theorem State.resetWith_drawIndex (c : Config) (q : List Byte) : (State.resetWith c q).drawIndex = 0 := rfl

end Sys2Proof.Machine
end

