-- ==== Sys2Proof/Laws/Capture.lean ====
section
/-! SUPPORT. The capture registers: what a push does, that the invariant is kept, and that the registers hold the bytes
pushed (spec/10_state.md R23, R40). -/

namespace Sys2Proof.Machine

@[simp] theorem Capture.empty_cnt : Capture.empty.cnt = 0 := rfl

@[simp] theorem Capture.empty_buf (i : Nat) (h : i < 6) : Capture.empty.buf[i] = none := by
  simp [Capture.empty]

theorem Capture.push_cnt (c : Capture) (b : Byte) :
    (c.push b).cnt.toNat = min (c.cnt.toNat + 1) 7 := by
  have hlt := c.cnt.isLt
  by_cases h : c.cnt.toNat < 7
  · simp only [Capture.push, rxcntSat, if_pos h, BitVec.toNat_add]
    have : BitVec.toNat (1 : BitVec 3) = 1 := rfl
    omega
  · simp only [Capture.push, rxcntSat, if_neg h]
    omega

theorem Capture.push_buf (c : Capture) (b : Byte) (i : Nat) (hi : i < 6) :
    (c.push b).buf[i] = if i = c.cnt.toNat then some b else c.buf[i] := by
  by_cases h : c.cnt.toNat < 6
  · simp only [Capture.push, dif_pos h, Vector.getElem_set]
    by_cases e : c.cnt.toNat = i
    · simp [e]
    · simp [e, Ne.symm e]
  · have e : i ≠ c.cnt.toNat := by omega
    simp only [Capture.push, dif_neg h, if_neg e]

theorem Capture.wf_empty : Capture.empty.Wf := by
  intro i
  simp

theorem Capture.wf_push {c : Capture} (h : c.Wf) (b : Byte) : (c.push b).Wf := by
  intro i
  have hi := h i
  have hlt := i.isLt
  rw [Capture.push_buf c b i.val hlt, Capture.push_cnt]
  by_cases e : i.val = c.cnt.toNat
  · rw [if_pos e, Option.isSome_some, eq_comm, decide_eq_true_iff]
    omega
  · rw [if_neg e, hi, decide_eq_decide]
    omega

theorem Capture.holds_empty : Capture.empty.Holds [] := by
  refine ⟨rfl, fun i => ?_⟩
  simp

theorem Capture.holds_push {c : Capture} {cap : List Byte} (h : c.Holds cap) (b : Byte) :
    (c.push b).Holds (cap ++ [b]) := by
  obtain ⟨hc, hb⟩ := h
  refine ⟨?_, fun i => ?_⟩
  · rw [Capture.push_cnt, hc, List.length_append, List.length_singleton]
    omega
  · have hi := i.isLt
    rw [Capture.push_buf c b i.val hi, hc]
    by_cases e : i.val = min cap.length 7
    · have : i.val = cap.length := by omega
      rw [if_pos e, this]
      simp
    · rw [if_neg e, hb i]
      by_cases l : i.val < cap.length
      · rw [List.getElem?_append_left l]
      · rw [List.getElem?_eq_none (by omega), List.getElem?_eq_none (by simp; omega)]

theorem Capture.holds_foldl {c : Capture} {cap : List Byte} (h : c.Holds cap) (bytes : List Byte) :
    (bytes.foldl Capture.push c).Holds (cap ++ bytes) := by
  induction bytes generalizing c cap with
  | nil => simpa using h
  | cons b bs ih => simpa using ih (Capture.holds_push h b)

/-- After `RX_LOAD` the registers hold the bytes loaded, whatever their number (R23, R95). -/
theorem Capture.holds_load (bytes : List Byte) : (Capture.load bytes).Holds bytes := by
  simpa [Capture.load] using Capture.holds_foldl Capture.holds_empty bytes

theorem Capture.wf_of_holds {c : Capture} {cap : List Byte} (h : c.Holds cap) : c.Wf := by
  intro i
  have hi := i.isLt
  rw [h.2 i, h.1]
  by_cases l : i.val < cap.length
  · rw [List.getElem?_eq_getElem l, Option.isSome_some, eq_comm, decide_eq_true_iff]
    omega
  · rw [List.getElem?_eq_none (by omega), Option.isSome_none, eq_comm, decide_eq_false_iff_not]
    omega

theorem Capture.wf_load (bytes : List Byte) : (Capture.load bytes).Wf :=
  Capture.wf_of_holds (Capture.holds_load bytes)

/-! The validation function (R130). -/

/-- A capture of the wrong length is the same to the validation function, whatever the bytes are (R130 rule 1). -/
theorem validate_of_length_ne (c : Config) {s : List Byte} (h : s.length ≠ c.rspFrameBytes) :
    validate c s = rejected 1 := by
  simp [validate, structuralFailure, h]

/-- The six rules on six bytes. -/
theorem validate_six {c : Config} (hc : c.SpecSizes) (b0 b1 b2 b3 b4 b5 : Byte) :
    validate c [b0, b1, b2, b3, b4, b5] =
      if b0 ≠ c.marker then rejected 2
      else if b1 ≠ c.rspLenField then rejected 3
      else if b2 ≠ c.rspStatusOk then rejected 4
      else if b3 ≠ c.rspReserved then rejected 5
      else if b5 ≠ b0 + b1 + b2 + b3 + b4 then rejected 6
      else { valid := true, payload := some b4, fail := 0 } := by
  rw [validate, structuralFailure_six hc]
  obtain ⟨-, h2, h3, -, h5⟩ := hc
  have hs : frameChecksum c [b0, b1, b2, b3, b4] = b0 + b1 + b2 + b3 + b4 := by
    rw [frameChecksum_eq_sum8 h5, sum8_five]
  split_ifs <;> simp_all

/-! The outputs (R27). -/

theorem readAll_map_some (bytes : List Byte) : readAll (bytes.map some) = some bytes := by
  induction bytes with
  | nil => rfl
  | cons b bs ih => simp [readAll, ih]

/-- The registers that hold `cap`, read together, give `cap`. -/
theorem Capture.bytes?_of_holds {c : Capture} {cap : List Byte} (h : c.Holds cap) (l : cap.length ≤ 6) :
    c.bytes? cap.length = some cap := by
  rw [Capture.bytes?, show c.buf.toList.take cap.length = cap.map some from ?_, readAll_map_some]
  refine List.ext_getElem (by simp; omega) fun i h1 h2 => ?_
  have hi : i < cap.length := by simpa using h2
  have e := h.2 ⟨i, by omega⟩
  simpa [List.getElem?_eq_getElem hi] using e

/-- The outputs of registers that hold `cap` are those of `validate cap`, whatever the length of `cap` (R23, R27). -/
theorem outputs_of_holds {cfg : Config} (hc : cfg.SpecSizes) {c : Capture} {cap : List Byte} (h : c.Holds cap) :
    outputs cfg c = some (validate cfg cap).outputs := by
  have h6 := hc.1
  have hn := h.1
  by_cases l : cap.length = cfg.rspFrameBytes
  · rw [outputs, if_neg (by omega), ← l, Capture.bytes?_of_holds h (by omega)]
    rfl
  · rw [validate_of_length_ne cfg l, outputs, if_pos (by omega)]

theorem outputs_load {cfg : Config} (hc : cfg.SpecSizes) (bytes : List Byte) :
    outputs cfg (Capture.load bytes) = some (validate cfg bytes).outputs :=
  outputs_of_holds hc (Capture.holds_load bytes)

theorem resultPort_load {cfg : Config} (hc : cfg.SpecSizes) (bytes : List Byte) :
    resultPort cfg (Capture.load bytes) = (validate cfg bytes).payload := by
  simp [resultPort, Validation.outputs, outputs_load hc]

end Sys2Proof.Machine
end

