-- ==== Sys2Proof/Laws/Decode.lean ====
section
/-! SUPPORT. The fields of a host operation word, and what a word must be for the decoder to accept it. -/

namespace Sys2Proof

open Sys2Proof.Machine

theorem opselOf_append (k : BitVec 3) (x : Byte) : opselOf (k ++ x) = k := by
  refine BitVec.eq_of_getLsbD_eq fun i hi => ?_
  have e : (k ++ x).getLsbD (8 + i) = k.getLsbD i := by
    rw [BitVec.getLsbD_append, if_neg (by omega), Nat.add_sub_cancel_left]
  simpa [opselOf, hi] using e

theorem operandOf_append (k : BitVec 3) (x : Byte) : operandOf (k ++ x) = x := by
  refine BitVec.eq_of_getLsbD_eq fun i hi => ?_
  have e : (k ++ x).getLsbD i = x.getLsbD i := by
    rw [BitVec.getLsbD_append, if_pos hi]
  simpa [operandOf, hi] using e

/-- A host operation word is its two fields (R88). -/
theorem hop_eq_append (w : BitVec 11) : w = opselOf w ++ operandOf w := by
  refine BitVec.eq_of_getLsbD_eq fun i hi => ?_
  rw [BitVec.getLsbD_append]
  by_cases h : i < 8
  · simp [h, operandOf]
  · simp [h, opselOf, show i - 8 < 3 by omega, show 8 + (i - 8) = i by omega]

/-- The host's port by `OPSEL` (30_encoding.md R88). -/
theorem decodeHop_append (k : BitVec 3) (x : Byte) :
    decodeHop (k ++ x) =
      match k.toNat with
      | 0 => .ok .rxClear
      | 1 => .ok (.rxPush x)
      | 2 => .ok .validate
      | 3 => .ok (.encode x)
      | 4 => .ok (.query x)
      | 5 => .ok .openT
      | 6 => .ok .closeT
      | _ => .error .reservedOpsel := by
  rw [decodeHop, opselOf_append, operandOf_append] <;> rfl

/-- What the decoder accepts on the host's port, each operation with its `OPSEL` (30_encoding.md R88). -/
theorem decodeHop_ok {w : BitVec 11} {i : Instr} (h : decodeHop w = .ok i) :
    ∃ x : Byte,
      (i = .rxClear ∧ w = 0b000#3 ++ x) ∨ (i = .rxPush x ∧ w = 0b001#3 ++ x) ∨ (i = .validate ∧ w = 0b010#3 ++ x) ∨
      (i = .encode x ∧ w = 0b011#3 ++ x) ∨ (i = .query x ∧ w = 0b100#3 ++ x) ∨ (i = .openT ∧ w = 0b101#3 ++ x) ∨
      (i = .closeT ∧ w = 0b110#3 ++ x) := by
  have hw := hop_eq_append w
  generalize opselOf w = k at hw
  generalize operandOf w = x at hw
  subst hw
  have hk : ∀ k : BitVec 3, k = 0 ∨ k = 1 ∨ k = 2 ∨ k = 3 ∨ k = 4 ∨ k = 5 ∨ k = 6 ∨ k = 7 := by decide
  rw [decodeHop_append] at h
  refine ⟨x, ?_⟩
  rcases hk k with rfl | rfl | rfl | rfl | rfl | rfl | rfl | rfl <;> simp_all

/-- What the decoder accepts on the command wire (30_encoding.md R92). -/
theorem decodeCommand_ok {c : Config} {bytes : List Byte} {i : Instr} (h : decodeCommand c bytes = .ok i) :
    c.cmdFrameBytes = 4 ∧ ∃ a k, bytes = [c.cmdMarker, c.cmdLenField, a, k] ∧
      k = frameChecksum c [c.cmdMarker, c.cmdLenField, a] ∧ i = .cmdFrame c.cmdLenField a k := by
  unfold decodeCommand at h
  split at h
  · split at h
    · cases h
    split at h
    · cases h
    split at h
    · cases h
    split at h
    · cases h
    cases h
    simp_all
  · cases h

/-- The response wire carries response frames only (30_encoding.md R93). -/
theorem decodeResponse_rspFrame {c : Config} {bytes : List Byte} {i : Instr} (h : decodeResponse c bytes = .ok i) :
    ∃ p k, i = .rspFrame p k := by
  unfold decodeResponse at h
  split at h
  · cases h
  split at h
  · cases h
    exact ⟨_, _, rfl⟩
  · cases h

/-- No input word decodes to a command frame (30_encoding.md R93). -/
theorem decode_input_ne_cmdFrame (c : Config) (w : InputWord) (len a k : Byte) :
    decode c w.port ≠ .ok (.cmdFrame len a k) := by
  intro h
  cases w with
  | rf bytes => obtain ⟨_, _, e⟩ := decodeResponse_rspFrame h; cases e
  | hop w => obtain ⟨_, e⟩ := decodeHop_ok h; simp at e
  | cfg sel d =>
    simp only [InputWord.port, decode, decodeCfg] at h
    split at h <;> cases h

/-- What the decoder accepts on the response wire (30_encoding.md R92). -/
theorem decodeResponse_ok {c : Config} (hc : c.SpecSizes) {bytes : List Byte} {i : Instr}
    (h : decodeResponse c bytes = .ok i) : ∃ p k, bytes = responseBytes c p k ∧ i = .rspFrame p k := by
  unfold decodeResponse at h
  split at h
  · cases h
  · obtain ⟨p, k, rfl⟩ := structuralFailure_eq_none hc (by assumption)
    exact ⟨p, k, rfl, by simpa [responseBytes_eq hc, hc.2.1, hc.2.2.1] using h.symm⟩

end Sys2Proof
end

