-- ==== Sys2Proof/Laws/Ops.lean ====
section
/-! SUPPORT. The shared operations: for each, one lemma that says everything it can do. -/

namespace Sys2Proof.Machine

/-! Every field after each of the shared operations that only update the state. -/

@[simp] theorem State.takeDraw_cfg (s : State) : s.takeDraw.cfg = s.cfg := rfl
@[simp] theorem State.takeDraw_capture (s : State) : s.takeDraw.capture = s.capture := rfl
@[simp] theorem State.takeDraw_isOpen (s : State) : s.takeDraw.isOpen = s.isOpen := rfl
@[simp] theorem State.takeDraw_tSettle (s : State) : s.takeDraw.tSettle = s.tSettle := rfl
@[simp] theorem State.takeDraw_rxQueue (s : State) : s.takeDraw.rxQueue = s.rxQueue ++ s.nextDraw.early := rfl
@[simp] theorem State.takeDraw_answer (s : State) : s.takeDraw.answer = s.answer := rfl
@[simp] theorem State.takeDraw_events (s : State) : s.takeDraw.events = s.events := rfl
@[simp] theorem State.takeDraw_host (s : State) : s.takeDraw.host = s.host := rfl
@[simp] theorem State.takeDraw_env (s : State) : s.takeDraw.env = s.env.tail := rfl
@[simp] theorem State.takeDraw_drawIndex (s : State) : s.takeDraw.drawIndex = s.drawIndex + 1 := rfl

@[simp] theorem writeFrame_cfg (d : Draw) (f : List Byte) (s : State) : (writeFrame d f s).cfg = s.cfg := rfl
@[simp] theorem writeFrame_capture (d : Draw) (f : List Byte) (s : State) : (writeFrame d f s).capture = s.capture := rfl
@[simp] theorem writeFrame_isOpen (d : Draw) (f : List Byte) (s : State) : (writeFrame d f s).isOpen = s.isOpen := rfl
@[simp] theorem writeFrame_tSettle (d : Draw) (f : List Byte) (s : State) : (writeFrame d f s).tSettle = s.tSettle := rfl
@[simp] theorem writeFrame_rxQueue (d : Draw) (f : List Byte) (s : State) : (writeFrame d f s).rxQueue = s.rxQueue := rfl
@[simp] theorem writeFrame_answer (d : Draw) (f : List Byte) (s : State) : (writeFrame d f s).answer = s.answer := rfl
@[simp] theorem writeFrame_events (d : Draw) (f : List Byte) (s : State) : (writeFrame d f s).events = s.events ++ [if d.writeOk then .wrote f else .transportFailed .writeCall] := rfl
@[simp] theorem writeFrame_host (d : Draw) (f : List Byte) (s : State) : (writeFrame d f s).host = s.host := rfl
@[simp] theorem writeFrame_env (d : Draw) (f : List Byte) (s : State) : (writeFrame d f s).env = s.env := rfl
@[simp] theorem writeFrame_drawIndex (d : Draw) (f : List Byte) (s : State) : (writeFrame d f s).drawIndex = s.drawIndex := rfl

@[simp] theorem waitSettle_cfg (d : Draw) (s : State) : (waitSettle d s).cfg = s.cfg := rfl
@[simp] theorem waitSettle_capture (d : Draw) (s : State) : (waitSettle d s).capture = s.capture := rfl
@[simp] theorem waitSettle_isOpen (d : Draw) (s : State) : (waitSettle d s).isOpen = s.isOpen := rfl
@[simp] theorem waitSettle_tSettle (d : Draw) (s : State) : (waitSettle d s).tSettle = s.tSettle := rfl
@[simp] theorem waitSettle_rxQueue (d : Draw) (s : State) : (waitSettle d s).rxQueue = s.rxQueue ++ d.late := rfl
@[simp] theorem waitSettle_answer (d : Draw) (s : State) : (waitSettle d s).answer = s.answer := rfl
@[simp] theorem waitSettle_events (d : Draw) (s : State) : (waitSettle d s).events = s.events ++ [.waited s.tSettle] := rfl
@[simp] theorem waitSettle_host (d : Draw) (s : State) : (waitSettle d s).host = s.host := rfl
@[simp] theorem waitSettle_env (d : Draw) (s : State) : (waitSettle d s).env = s.env := rfl
@[simp] theorem waitSettle_drawIndex (d : Draw) (s : State) : (waitSettle d s).drawIndex = s.drawIndex := rfl

@[simp] theorem receive_cfg (bytes : List Byte) (s : State) : (receive bytes s).cfg = s.cfg := rfl
@[simp] theorem receive_capture (bytes : List Byte) (s : State) : (receive bytes s).capture = Capture.load bytes := rfl
@[simp] theorem receive_isOpen (bytes : List Byte) (s : State) : (receive bytes s).isOpen = s.isOpen := rfl
@[simp] theorem receive_tSettle (bytes : List Byte) (s : State) : (receive bytes s).tSettle = s.tSettle := rfl
@[simp] theorem receive_rxQueue (bytes : List Byte) (s : State) : (receive bytes s).rxQueue = s.rxQueue := rfl
@[simp] theorem receive_answer (bytes : List Byte) (s : State) : (receive bytes s).answer = s.answer := rfl
@[simp] theorem receive_events (bytes : List Byte) (s : State) : (receive bytes s).events = s.events := rfl
@[simp] theorem receive_host (bytes : List Byte) (s : State) : (receive bytes s).host = s.host := rfl
@[simp] theorem receive_env (bytes : List Byte) (s : State) : (receive bytes s).env = s.env := rfl
@[simp] theorem receive_drawIndex (bytes : List Byte) (s : State) : (receive bytes s).drawIndex = s.drawIndex := rfl

@[simp] theorem raiseAbsent_cfg (s : State) : (raiseAbsent s).cfg = s.cfg := rfl
@[simp] theorem raiseAbsent_capture (s : State) : (raiseAbsent s).capture = Capture.empty := rfl
@[simp] theorem raiseAbsent_isOpen (s : State) : (raiseAbsent s).isOpen = s.isOpen := rfl
@[simp] theorem raiseAbsent_tSettle (s : State) : (raiseAbsent s).tSettle = s.tSettle := rfl
@[simp] theorem raiseAbsent_rxQueue (s : State) : (raiseAbsent s).rxQueue = s.rxQueue := rfl
@[simp] theorem raiseAbsent_answer (s : State) : (raiseAbsent s).answer = .result none := rfl
@[simp] theorem raiseAbsent_events (s : State) : (raiseAbsent s).events = s.events := rfl
@[simp] theorem raiseAbsent_host (s : State) : (raiseAbsent s).host = s.host := rfl
@[simp] theorem raiseAbsent_env (s : State) : (raiseAbsent s).env = s.env := rfl
@[simp] theorem raiseAbsent_drawIndex (s : State) : (raiseAbsent s).drawIndex = s.drawIndex := rfl

@[simp] theorem failExchange_cfg (s : State) : (failExchange s).cfg = s.cfg := rfl
@[simp] theorem failExchange_capture (s : State) : (failExchange s).capture = Capture.empty := rfl
@[simp] theorem failExchange_isOpen (s : State) : (failExchange s).isOpen = s.isOpen := rfl
@[simp] theorem failExchange_tSettle (s : State) : (failExchange s).tSettle = s.tSettle := rfl
@[simp] theorem failExchange_rxQueue (s : State) : (failExchange s).rxQueue = s.rxQueue := rfl
@[simp] theorem failExchange_answer (s : State) : (failExchange s).answer = .result none := rfl
@[simp] theorem failExchange_events (s : State) : (failExchange s).events = s.events ++ [.returned none] := rfl
@[simp] theorem failExchange_host (s : State) : (failExchange s).host = s.host := rfl
@[simp] theorem failExchange_env (s : State) : (failExchange s).env = s.env := rfl
@[simp] theorem failExchange_drawIndex (s : State) : (failExchange s).drawIndex = s.drawIndex := rfl

@[simp] theorem returnResult_cfg (s : State) : (returnResult s).cfg = s.cfg := rfl
@[simp] theorem returnResult_capture (s : State) : (returnResult s).capture = s.capture := rfl
@[simp] theorem returnResult_isOpen (s : State) : (returnResult s).isOpen = s.isOpen := rfl
@[simp] theorem returnResult_tSettle (s : State) : (returnResult s).tSettle = s.tSettle := rfl
@[simp] theorem returnResult_rxQueue (s : State) : (returnResult s).rxQueue = s.rxQueue := rfl
@[simp] theorem returnResult_answer (s : State) : (returnResult s).answer = .result (resultPort s.cfg s.capture) := rfl
@[simp] theorem returnResult_events (s : State) : (returnResult s).events = s.events ++ [.returned (resultPort s.cfg s.capture)] := rfl
@[simp] theorem returnResult_host (s : State) : (returnResult s).host = s.host := rfl
@[simp] theorem returnResult_env (s : State) : (returnResult s).env = s.env := rfl
@[simp] theorem returnResult_drawIndex (s : State) : (returnResult s).drawIndex = s.drawIndex := rfl

/-- `VALIDATE` answers a next state only with the outputs of the capture, and changes nothing else. -/
theorem reportVerdict_next {s t : State} (h : reportVerdict s = .next t) :
    ∃ v, outputs s.cfg s.capture = some v ∧ t = s.withAnswer (.verdict v) := by
  unfold reportVerdict at h
  split at h
  · rename_i v hv
    exact ⟨v, hv, by cases h; rfl⟩
  · cases h

theorem reportVerdict_receive {s : State} (hc : s.cfg.SpecSizes) (bytes : List Byte) :
    reportVerdict (receive bytes s)
      = .next ((receive bytes s).withAnswer (.verdict (validate s.cfg bytes).outputs)) := by
  simp [reportVerdict, receive, outputs_load hc]

/-- The next draw is the first the state lists, if it lists one. -/
theorem State.nextDraw_of_env {s : State} {d : Draw} {ds : List Draw} (h : s.env = d :: ds) : s.nextDraw = d := by
  simp [State.nextDraw, h]

/-- The next draw is the draw of the first operation from here on. -/
theorem State.nextDraw_eq_drawAt (s : State) : s.nextDraw = s.drawAt 0 := by
  unfold State.nextDraw State.drawAt
  cases s.env <;> rfl

/-- Taking a draw moves every later draw one place forward. -/
theorem State.drawAt_succ {s t : State} (he : t.env = s.env.tail) (hn : t.drawIndex = s.drawIndex + 1) (k : Nat) :
    t.drawAt k = s.drawAt (k + 1) := by
  have e : s.env.tail[k]? = s.env[k + 1]? := by cases s.env <;> rfl
  simp only [State.drawAt, he, hn, e, Nat.add_assoc, Nat.add_comm 1 k]

/-- `ensure_open()`: already open; opened by this call; or failed. -/
theorem ensureOpen_cases (d : Draw) (s : State) :
    (s.isOpen = true ∧ ensureOpen d s = s) ∨
    (s.isOpen = false ∧ d.openOk = true ∧ ensureOpen d s = (s.withOpen true).withEvent (.opened s.cfg.tOpen)) ∨
    (s.isOpen = false ∧ d.openOk = false ∧ ensureOpen d s = s.withEvent (.transportFailed .openCall)) := by
  unfold ensureOpen
  cases s.isOpen <;> cases d.openOk <;> simp

/-- `read_available()`: the bytes it returns with what it leaves in the queue, or its failure. -/
theorem readAvailable_cases (d : Draw) (s : State) :
    (∃ bytes left,
      (d.read = .other bytes left ∨ d.read = .queued ∧ bytes = s.rxQueue ∧ left = []) ∧
      readAvailable d s = (some bytes, (s.withQueue left).withEvent (.read bytes))) ∨
    (∃ left, d.read = .error left ∧
      readAvailable d s = (none, (s.withQueue left).withEvent (.transportFailed .readCall))) := by
  unfold readAvailable
  cases h : d.read with
  | queued => exact .inl ⟨_, _, .inr ⟨rfl, rfl, rfl⟩, rfl⟩
  | other bytes left => exact .inl ⟨_, _, .inl rfl, rfl⟩
  | error left => exact .inr ⟨_, rfl, rfl⟩

/-- An exchange ends in one of four ways: the open failed, the write failed, the read failed, or the bytes read were
validated. -/
theorem exchange_cases (a : Byte) (s : State) :
    (∃ t, t = ensureOpen s.nextDraw s.takeDraw ∧ t.isOpen = false ∧ exchange a s = failExchange t) ∨
    (∃ t, t = ensureOpen s.nextDraw s.takeDraw ∧ t.isOpen = true ∧ s.nextDraw.writeOk = false ∧
      exchange a s = failExchange (writeFrame s.nextDraw (commandFrame t.cfg a) t)) ∨
    (∃ t, t = ensureOpen s.nextDraw s.takeDraw ∧ t.isOpen = true ∧ s.nextDraw.writeOk = true ∧
      exchange a s
        = readAndValidate s.nextDraw (waitSettle s.nextDraw (writeFrame s.nextDraw (commandFrame t.cfg a) t))) := by
  cases ho : (ensureOpen s.nextDraw s.takeDraw).isOpen with
  | false => exact .inl ⟨_, rfl, ho, by simp [exchange, ho]⟩
  | true =>
    cases hw : s.nextDraw.writeOk with
    | false => exact .inr (.inl ⟨_, rfl, ho, rfl, by simp [exchange, ho, hw]⟩)
    | true => exact .inr (.inr ⟨_, rfl, ho, rfl, by simp [exchange, ho, hw]⟩)

/-! The history. -/

theorem openAfter_append (x y : List Event) : openAfter (x ++ y) = y.foldl openBit (openAfter x) := by
  simp [openAfter]

theorem framesWritten_append (x y : List Event) : framesWritten (x ++ y) = framesWritten x ++ framesWritten y := by
  simp [framesWritten]

theorem resultsReturned_append (x y : List Event) :
    resultsReturned (x ++ y) = resultsReturned x ++ resultsReturned y := by
  simp [resultsReturned]

theorem readsFollowWrites_append {x y : List Event} (hx : ReadsFollowWrites x) (hy : ReadsFollowWrites y) :
    ReadsFollowWrites (x ++ y) := by
  intro before bytes after h
  rw [List.append_eq_append_iff] at h
  rcases h with ⟨w, rfl, h⟩ | ⟨w, h1, h2⟩
  · obtain ⟨e, f, d, rfl⟩ := hy w bytes after h
    exact ⟨x ++ e, f, d, by simp⟩
  · cases w with
    | nil =>
      obtain ⟨e, f, d, h⟩ := hy [] bytes after (by simpa using h2.symm)
      simp at h
    | cons z zs =>
      simp only [List.cons_append, List.cons.injEq] at h2
      obtain ⟨rfl, rfl⟩ := h2
      exact hx before bytes zs h1

end Sys2Proof.Machine
end

