-- ==== Sys2Proof/Laws/PerInstr.lean ====
section
/-! SUPPORT. The per-operation law `Port`: the encoder puts every operation on the port of its format
(spec/opcode_table.json, column "format"). -/

namespace Sys2Proof.Laws.Port

/-- The word of this operation stands on the port of its format. -/
def Statement (i : Instr) : Prop :=
  ∀ c : Config, (encode c i).format = i.format

theorem cmdFrame (len addr cks : Byte) : Statement (.cmdFrame len addr cks) := fun _ => rfl
theorem rspFrame (payload cks : Byte) : Statement (.rspFrame payload cks) := fun _ => rfl
theorem rxClear : Statement .rxClear := fun _ => rfl
theorem rxPush (b : Byte) : Statement (.rxPush b) := fun _ => rfl
theorem validate : Statement .validate := fun _ => rfl
theorem encode (a : Byte) : Statement (.encode a) := fun _ => rfl
theorem query (a : Byte) : Statement (.query a) := fun _ => rfl
theorem openT : Statement .openT := fun _ => rfl
theorem closeT : Statement .closeT := fun _ => rfl
theorem setSettle (d : Duration) : Statement (.setSettle d) := fun _ => rfl
theorem getSettle : Statement .getSettle := fun _ => rfl

end Sys2Proof.Laws.Port
end

