-- ==== Sys2Proof/Tests/Slice0.lean ====
section
/-! SUPPORT. Tests, each with its expected value from the spec (spec/95_test_vectors.md unless another file is named), and
for every statement with hypotheses a witness that meets them. -/

namespace Sys2Proof.Tests

open Sys2Proof.Machine

/-! ## Helpers -/

/-- The normative configuration with numbers for the three open delays, so that a test can be computed. -/
def cfg : Config := { specConfig with tSettleDefault := 100, tOpen := 20, tClose := 30 }

/-- A fresh block whose receive queue is empty, before the draws `env`. -/
def fresh (env : List Draw) : State := { State.resetWith cfg [] with env := env }

/-- A fresh block with the transport open. -/
def opened (env : List Draw) : State := { fresh env with isOpen := true, events := [.opened 20] }

/-- A draw in which every call succeeds and the read returns `bytes`. -/
def reads (bytes : List Byte) : Draw := ⟨true, true, [], [], .other bytes []⟩

/-- A fresh block that has captured `bytes`. -/
def holding (bytes : List Byte) : State := receive bytes (fresh [])

/-- What `f` says of the next state, if there is one. -/
def after {α : Type} (o : Host.Outcome State Fault Refusal) (f : State → α) : Option α :=
  match o with
  | .next s => some (f s)
  | .fault _ => none
  | .refused _ => none

/-- The sum of 51 03 06 00 20 is 7A: vector V1. -/
def v1 : List Byte := [0x51, 0x03, 0x06, 0x00, 0x20, 0x7A]

/-- The example addresses of 93_implementation_defined.md G1 (from general knowledge, in no rule). -/
def exampleAddress : RegName → Byte
  | .groupLo => 0x11
  | .subgroup => 0x21
  | .caps => 0x31
  | .groupHi => 0x41
  | .status => 0x71
  | .humLo => 0x81
  | .humHi => 0x91
  | .tempLo => 0xA1
  | .tempHi => 0xB1
  | .val3Lo => 0xC1
  | .val3Hi => 0xD1
  | .val4Lo => 0xE1
  | .val4Hi => 0xF1

def addr : AddressMap where
  at_ := exampleAddress
  distinct := by intro a b h; cases a <;> cases b <;> first | rfl | exact absurd h (by decide)

/-! ## Well-formedness: an ill-formed term for each check -/

theorem test_wf_command_length_byte : (Instr.cmdFrame 0x02 0x81 0xD4).wellFormed cfg = false := by decide
theorem test_wf_command_checksum : (Instr.cmdFrame 0x01 0x81 0xD4).wellFormed cfg = false := by decide
theorem test_wf_response_checksum : (Instr.rspFrame 0x20 0x7B).wellFormed cfg = false := by decide
theorem test_wf_accepts :
    (Instr.cmdFrame 0x01 0x81 0xD3).wellFormed cfg = true ∧ (Instr.rspFrame 0x20 0x7A).wellFormed cfg = true := by decide

/-! ## Decoding: each row's word, bit by bit (30_encoding.md R81, R83, R88, R89) -/

theorem test_decode_rx_clear : decode cfg (.hop 0b00010101010#11) = .ok .rxClear := by rfl
theorem test_decode_rx_push : decode cfg (.hop 0b00101010001#11) = .ok (.rxPush 0x51) := by rfl
theorem test_decode_validate : decode cfg (.hop 0b01000000000#11) = .ok .validate := by rfl
theorem test_decode_encode : decode cfg (.hop 0b01110000001#11) = .ok (.encode 0x81) := by rfl
theorem test_decode_query : decode cfg (.hop 0b10010000001#11) = .ok (.query 0x81) := by rfl
theorem test_decode_open : decode cfg (.hop 0b10100000000#11) = .ok .openT := by rfl
theorem test_decode_close : decode cfg (.hop 0b11000000000#11) = .ok .closeT := by rfl
theorem test_decode_reserved : decode cfg (.hop 0b11110101010#11) = .error .reservedOpsel := by rfl
theorem test_decode_set_settle : decode cfg (.cfg 0b1#1 250) = .ok (.setSettle 250) := by rfl
theorem test_decode_get_settle : decode cfg (.cfg 0b0#1 250) = .ok .getSettle := by rfl

/-- Vector E7; a wrong checksum, a wrong marker and a wrong length are rejected by name (R92). -/
theorem test_decode_cmd_frame :
    decodeTableWord 32 0b01010001000000011000000111010011 = some (.cmdFrame 0x01 0x81 0xD3) ∧
    decodeCommand cfg [0x51, 0x01, 0x81, 0xD4] = .error .commandChecksum ∧
    decodeCommand cfg [0x50, 0x01, 0x81, 0xD2] = .error .commandMarker ∧
    decodeCommand cfg [0x51, 0x01, 0x81] = .error .commandLength := ⟨by decide, rfl, rfl, rfl⟩

/-- Vectors V1 and V14. -/
theorem test_decode_rsp_frame :
    decodeTableWord 48 0b010100010000001100000110000000000010000001111010 = some (.rspFrame 0x20 0x7A) ∧
    decodeResponse cfg [0x51, 0x03, 0x15, 0x00, 0x20, 0x89] = .error (.notResponseFrame 4) := ⟨by decide, rfl⟩

/-- A word with a bit above its port's width is no word of that port. -/
theorem test_decode_too_wide : decodeTableWord 16 0x800 = none ∧ decodeTableWord 8 2 = none := by decide

/-! ## The checksum unit: K1, K7, K9, K11, K13, K14 -/

theorem test_sum8 :
    sum8 [] = 0x00 ∧ sum8 [0xFF, 0xFF, 0xFF] = 0xFD ∧ sum8 [0x51, 0x03, 0x06, 0x00, 0x20] = 0x7A ∧
    sum8 [0x51, 0x03, 0x06, 0x00, 0xA6] = 0x00 ∧ sum8 [0xFF, 0xFF, 0xFF, 0xFF, 0xFF] = 0xFB ∧
    sum8 [0x20, 0x51, 0x00, 0x06, 0x03] = 0x7A := by decide

/-! ## The validation function: V1 to V25 -/

theorem test_validate_accepts :
    validate cfg v1 = ⟨true, some 0x20, 0⟩ ∧
    validate cfg [0x51, 0x03, 0x06, 0x00, 0xA6, 0x00] = ⟨true, some 0xA6, 0⟩ ∧
    validate cfg [0x51, 0x03, 0x06, 0x00, 0x51, 0xAB] = ⟨true, some 0x51, 0⟩ ∧
    validate cfg [0x51, 0x03, 0x06, 0x00, 0x21, 0x7B] = ⟨true, some 0x21, 0⟩ := by decide

theorem test_validate_fail_codes :
    (validate cfg []).fail = 1 ∧ (validate cfg [0x51, 0x03, 0x06, 0x00, 0x20]).fail = 1 ∧
    (validate cfg [0x50, 0x03, 0x06, 0x00, 0x20, 0x79]).fail = 2 ∧
    (validate cfg [0x51, 0x04, 0x06, 0x00, 0x20, 0x7B]).fail = 3 ∧
    (validate cfg [0x51, 0x03, 0x15, 0x00, 0x20, 0x89]).fail = 4 ∧
    (validate cfg [0x51, 0x03, 0x06, 0x01, 0x20, 0x7B]).fail = 5 ∧
    (validate cfg [0x51, 0x03, 0x06, 0x00, 0x20, 0x7B]).fail = 6 ∧
    (validate cfg (v1 ++ [0x00])).fail = 1 ∧ (validate cfg (0x00 :: v1)).fail = 1 ∧
    (validate cfg [0x52, 0x04, 0x06, 0x00, 0x20, 0x00]).fail = 2 ∧
    (validate cfg [0x00, 0x00, 0x00, 0x00, 0x00, 0x00]).fail = 2 := by decide

/-! ## The operations -/

/-- Section 2.4: `RX_CLEAR` after a valid capture. -/
theorem test_rx_clear :
    after (exec .rxClear (holding v1)) (fun t => (t.capture, outputs cfg t.capture))
      = some (Capture.empty, some ⟨none, false, 0x00, 1⟩) := by decide

/-- Section 2.4: the sixth push makes `VALID` 1. -/
theorem test_rx_push_sixth :
    after (exec (.rxPush 0x7A) (holding [0x51, 0x03, 0x06, 0x00, 0x20])) (fun t => outputs cfg t.capture)
      = some (some ⟨some 0x20, true, 0x20, 0⟩) := by decide

/-- Section 2.4: the seventh push makes it 0, and a later one changes nothing. -/
theorem test_rx_push_saturates :
    after (exec (.rxPush 0x00) (holding v1)) (fun t => (t.capture.cnt, t.capture.bytes? 6, outputs cfg t.capture))
      = some (7, some v1, some ⟨none, false, 0x00, 1⟩) ∧
    after (exec (.rxPush 0x99) (holding (v1 ++ [0x00]))) (fun t => t.capture) = some (Capture.load (v1 ++ [0x00])) := by
  decide

/-- Program P1, line 9. -/
theorem test_validate : after (exec .validate (holding v1)) State.answer = some (.verdict ⟨some 0x20, true, 0x20, 0⟩) := by
  decide

/-- 10_state.md R24: six bytes counted, one register without a value. -/
theorem test_validate_unwritten :
    exec .validate { fresh [] with capture := { Capture.load v1 with buf := (Capture.load v1).buf.set 3 none } }
      = .fault .unwrittenCapture := by rfl

/-- Vectors E7 and E10. -/
theorem test_encode :
    after (exec (.encode 0x81) (fresh [])) State.answer = some (.frame [0x51, 0x01, 0x81, 0xD3]) ∧
    after (exec (.encode 0xB1) (fresh [])) State.answer = some (.frame [0x51, 0x01, 0xB1, 0x03]) := by decide

/-- Vector E18: the dependence on the open parameter. -/
theorem test_encode_other_length_byte :
    after (exec (.encode 0x81) { fresh [] with cfg := { cfg with cmdLenField := 0x00 } }) State.answer
      = some (.frame [0x51, 0x00, 0x81, 0xD2]) := by decide

/-- Vector Q9: a closed transport is opened; frame, delays and result. -/
theorem test_query_opens :
    after (exec (.query 0x81) (fresh [reads v1])) (fun t => (t.answer, t.isOpen, t.events))
      = some (.result (some 0x20), true,
          [.opened 20, .wrote [0x51, 0x01, 0x81, 0xD3], .waited 100, .read v1, .returned (some 0x20)]) := by decide

/-- Vectors Q2, Q4, Q6 and Q7, with `FAIL` and `RXCNT` after. -/
theorem test_query_failures :
    [reads [], reads [0x51, 0x03, 0x06, 0x00, 0x20, 0x7B], reads (v1 ++ [0x51, 0x03, 0x06, 0x00, 0x0C, 0x66]),
      ⟨true, true, [], [], .error []⟩].map (fun d =>
        after (exec (.query 0x81) (opened [d])) (fun t => (t.answer, (outputs cfg t.capture).map Verdict.fail, t.capture.cnt)))
      = [some (.result none, some 1, 0), some (.result none, some 6, 6), some (.result none, some 1, 7),
          some (.result none, some 1, 0)] := by decide

/-- Program P5, lines 2 and 4: the open fails; `OPEN` stays 0; `CLOSE` has nothing to do. -/
theorem test_open_fails :
    after (exec .openT (fresh [⟨false, true, [], [], .queued⟩])) (fun t => (t.answer, t.isOpen))
      = some (.transportError, false) := by decide

/-- 43_register_exchange.md R170: `OPEN` twice, the second does nothing; it succeeds where the draw says so. -/
theorem test_open :
    after (exec .openT (opened [])) (fun t => (t.answer, t.events)) = some (.done, [.opened 20]) ∧
    after (exec .openT (fresh [reads []])) (fun t => (t.isOpen, t.events)) = some (true, [.opened 20]) := by decide

/-- 43_register_exchange.md R171. -/
theorem test_close :
    after (exec .closeT (opened [])) (fun t => (t.isOpen, t.events)) = some (false, [.opened 20, .closed 30]) ∧
    after (exec .closeT (fresh [])) (fun t => (t.isOpen, t.events)) = some (false, []) := by decide

/-- 43_register_exchange.md R176 and R177. -/
theorem test_settle :
    after (exec (.setSettle 250) (fresh [])) State.tSettle = some 250 ∧
    after (exec .getSettle (fresh [])) State.answer = some (.settle 100) := by decide

/-- Vector Q1 seen from the wire (43_register_exchange.md R175): the frame is written by the exchange at its address; what
is no command frame is refused (30_encoding.md R92). -/
theorem test_cmd_frame :
    after (exec (.cmdFrame 0x01 0x81 0xD3) (opened [reads v1])) State.events
      = some [.opened 20, .wrote [0x51, 0x01, 0x81, 0xD3], .waited 100, .read v1, .returned (some 0x20)] ∧
    exec (.cmdFrame 0x01 0x81 0xD4) (opened [reads []]) = .refused .notCommandFrame := ⟨by decide, rfl⟩

/-- Vectors V1 and V16 as frames on the wire. -/
theorem test_rsp_frame :
    after (exec (.rspFrame 0x20 0x7A) (fresh [])) State.answer = some (.verdict ⟨some 0x20, true, 0x20, 0⟩) ∧
    after (exec (.rspFrame 0x20 0x7B) (fresh [])) State.answer = some (.verdict ⟨none, false, 0x00, 6⟩) := by decide

/-! ## The step -/

/-- Right after reset the first operation is the one the host issues (10_state.md R251, 30_encoding.md R90). -/
theorem test_step_from_reset :
    after (step (State.reset.withFetchWord 16 0x151)) (fun t => (t.capture.cnt, t.answer)) = some (1, .done) ∧
    step (State.reset.withFetchWord 16 0x700) = .refused (.undecodable .reservedOpsel) ∧
    step State.reset = .next State.reset := ⟨by decide, rfl, rfl⟩

/-- 30_encoding.md R93: the command frame of the table comes on the wire when the host issues `QUERY 0x81`. -/
theorem test_step_command_frame :
    (State.reset.withFetchWord 32 0x510181D3).host = [.hop 0x481] ∧
    step (State.reset.withFetchWord 32 0x510181D3) = exec (.cmdFrame 0x01 0x81 0xD3) State.reset := ⟨by decide, rfl⟩

/-! ## The consumers: S9 (as corrected by 90_conflicts.md C2), M2, M3, M5, M7, M8, M10, M12, M13, M15, M16 -/

/-- The bytes of M1. -/
def m1 : CycleBytes := ⟨some 0x20, some 0x0C, some 0x00, some 0x0B, none, none, none, none, some 0x00⟩

/-- The binary64 numbers nearest to 31.04, and 28.16 − 273.15 in binary64, as exact fractions. -/
theorem test_measurement :
    decodeMeasurement cfg m1
      = ⟨some (mkRat 4368491638549381 140737488355328), some (mkRat (-8619819318042951) 35184372088832), none, none⟩ := by
  decide +kernel

theorem test_temperature_25 : temperatureOf (raw 0x77 0x74) = 25 := by decide +kernel

theorem test_status_gate :
    decodeMeasurement cfg { m1 with status := some 0x01 } = ⟨none, none, none, none⟩ ∧
    decodeMeasurement cfg { m1 with status := none } = ⟨none, none, none, none⟩ := by decide

theorem test_capabilities :
    decodeCapabilities (some 0x05) = ⟨true, false, true, false⟩ ∧
    decodeCapabilities (some 0xF0) = ⟨false, false, false, false⟩ := by decide

theorem test_device_type :
    deviceType 0x0A 0x12 0xFF = ['E', 'E', '1', '0', '-', '1', ' ', 'F', 'T', '2'] ∧
    deviceType 0x07 0x03 0x00 = ['E', 'E', '0', '7', ' ', 'F', 'T', '3'] ∧
    deviceType 0x2C 0x11 0x01 = ['E', 'E', '3', '0', '0', '-', '1', ' ', 'F', 'T', '1'] ∧
    decodeIdentity (some 0x0A) none (some 0x00) = ['?', '?', '?'] := by decide

/-- 49_environment_consumers.md R194 step 2 and R210: no humidity, temperature and air velocity, no CO2. -/
theorem test_expected_channels :
    let caps : CapabilitySet := ⟨false, true, true, false⟩
    expectedChannels ⟨.airVelocity, .co2⟩ caps .probed = ⟨false, true, true, false⟩ ∧
    expectedChannels ⟨.airVelocity, .co2⟩ caps .simple = ⟨true, true, true, false⟩ ∧
    expectedChannels ⟨.co2, .airVelocity⟩ caps .simple = ⟨true, true, false, true⟩ ∧
    expectedChannels ⟨.airVelocity, .co2⟩ caps .unprobed = ⟨true, true, false, false⟩ := by decide

/-- 49_environment_consumers.md R192, R207, under a layout that lists the parts: a module that does not answer. -/
theorem test_device_identity :
    (deviceIdentity ⟨['M'], fun p => p.manufacturer ++ p.deviceType ++ p.firmwareVersion ++ p.serialNumber ++ p.port⟩ ['P']
        addr (opened [reads [], reads [], reads []])).1
      = ['M', '?', '?', '?', '?', '?', '?', '?', '?', '?', 'P'] := by decide

/-! ## Witnesses: for every statement with hypotheses, a state and operands that meet them all -/

/-- The sizes of R7 hold of the configuration of every witness. -/
theorem witness_SpecSizes : cfg.SpecSizes ∧ specConfig.SpecSizes ∧ ∀ env, (fresh env).cfg.SpecSizes :=
  ⟨by decide, by decide, fun _ => ⟨rfl, rfl, rfl, rfl, rfl⟩⟩

/-- A state with one operation issued. -/
def issuing (w : InputWord) (s : State) : State := { s with host := [w] }

theorem readsFollowWrites_opened : ReadsFollowWrites (opened []).events := by
  intro before bytes after h
  have : Event.read bytes ∈ [Event.opened 20] := by
    rw [show [Event.opened 20] = (opened []).events from rfl, h]
    simp
  simp at this

theorem witness_EveryStepKeepsTheInvariant :
    (issuing (.hop 0x481) (opened [reads v1])).Inv ∧
    ∃ t, step (issuing (.hop 0x481) (opened [reads v1])) = .next t :=
  ⟨⟨by decide, by decide, by simp [issuing, opened, framesWritten, frameWritten]⟩, _, rfl⟩

theorem witness_EveryStepReadsOnlyAfterWriteAndSettle :
    ReadsFollowWrites (issuing (.hop 0x481) (opened [reads v1])).events ∧
    ∃ t, step (issuing (.hop 0x481) (opened [reads v1])) = .next t := ⟨readsFollowWrites_opened, _, rfl⟩

theorem witness_NoStepWritesTheProtocolConstants :
    ∃ t, step (issuing (.cfg 1 5) (fresh [])) = .next t := ⟨_, rfl⟩

theorem witness_DecodeOfEncodeIsTheOperation :
    (Instr.cmdFrame 0x01 0xFF 0x51).wellFormed cfg = true ∧ (Instr.rspFrame 0xA6 0x00).wellFormed cfg = true := by decide

theorem witness_DecodedOperationsFitTheirWords :
    decode cfg (.cf [0x51, 0x01, 0x81, 0xD3]) = .ok (.cmdFrame 0x01 0x81 0xD3) ∧
    decode cfg (.rf v1) = .ok (.rspFrame 0x20 0x7A) ∧ decode cfg (.hop 0x6FF) = .ok .closeT := ⟨rfl, rfl, rfl⟩

theorem witness_OnlyOpselSevenIsRefused :
    (issuing (.hop 0x7FF) (fresh [])).host = [.hop 0x7FF] ∧ (0x7FF#11).extractLsb' 8 3 = 0b111#3 ∧
    (0x6FF#11).extractLsb' 8 3 ≠ 0b111#3 := by decide

theorem witness_ResponseWordsDecodeByMatchAndMask :
    (0x5103060020FF < 2 ^ 48 ∧ 0x5103060020FF / 2 ^ 16 = 0x51030600) ∧
    (0xFFFFFFFFFFFF < 2 ^ 48 ∧ 0xFFFFFFFFFFFF / 2 ^ 16 ≠ 0x51030600) := by decide

theorem witness_StepRunsTheDecodedOperation :
    (issuing (.hop 0x381) (fresh [])).host = [.hop 0x381] ∧
    decode (issuing (.hop 0x381) (fresh [])).cfg (InputWord.hop 0x381).port = .ok (.encode 0x81) := ⟨rfl, rfl⟩

theorem witness_StepWaitsForTheHost : (fresh []).host = [] := rfl

/-- An empty capture, seven bytes, and the six of V1: all stand on the response wire. -/
theorem witness_AnyCaptureOnTheResponseWireIsValidated :
    [[], v1 ++ [0x00], v1].map (fun b => after (step (issuing (.rf b) (fresh []))) (fun t => (t.answer, t.capture.cnt)))
      = [some (.verdict ⟨none, false, 0x00, 1⟩, 0), some (.verdict ⟨none, false, 0x00, 1⟩, 7),
          some (.verdict ⟨some 0x20, true, 0x20, 0⟩, 6)] := by decide

theorem witness_ChecksumLaws : ([0x01, 0x02] : List Byte).Perm [0x02, 0x01] := by decide

theorem witness_ChecksumSeesASingleByteChange : (0x00 : Byte) ≠ 0xFF := by decide

theorem witness_SingleByteMutationIsInvalid :
    (0x7A : Byte) ≠ 0x7B ∧ (validate cfg ([0x51, 0x03, 0x06, 0x00, 0x20] ++ 0x7A :: [])).valid = true := by decide

theorem witness_UndetectedCorruptionsMovePayloadAndChecksumTogether : (validate cfg v1).payload = some 0x20 := by decide

theorem witness_OutputsAgreeWithEachOther : outputs cfg (Capture.load v1) = some ⟨some 0x20, true, 0x20, 0⟩ := by decide

theorem witness_RxClearEmptiesTheCapture : (fresh []).capture.Holds [] := by decide

theorem witness_RxPushAppendsOneByte :
    (holding (v1 ++ [0x00])).capture.cnt = 7 ∧
    outputs cfg ((Capture.load [0x51, 0x03, 0x06, 0x00, 0x20]).push 0x7A) = some ⟨some 0x20, true, 0x20, 0⟩ := by decide

theorem witness_ValidateReportsTheVerdictOfTheCapture :
    (holding [0x51]).capture.cnt ≠ 6 ∧ (holding v1).capture.Holds v1 ∧ (holding []).capture.Holds [] := by decide

theorem witness_ValidateFaultsExactlyOnAnUnwrittenRegister : (holding v1).capture.Wf := by decide

theorem witness_EncodedFramesDetermineTheAddress : (0x00 : Byte) ≠ 0xFF := by decide

theorem witness_CommandFramesAreOutputOnly :
    after (step (issuing (.hop 0x481) (opened [reads v1]))) (fun t => framesWritten (t.events.drop 1))
      = some [[0x51, 0x01, 0x81, 0xD3]] ∧
    after (step (issuing (.hop 0x381) (opened [reads v1]))) (fun t => framesWritten (t.events.drop 1)) = some [] := by decide

/-- The address 0xFF; a write that succeeds, one that fails, an open that fails; and a wrong checksum. -/
theorem witness_CmdFrameIsWrittenByItsExchange :
    ((0x01 : Byte) = cfg.cmdLenField ∧ (0x51 : Byte) = cfg.cmdMarker + 0x01 + 0xFF) ∧
    [opened [reads []], opened [⟨true, false, [], [], .queued⟩], fresh [⟨false, true, [], [], .queued⟩]].map
        (fun s => after (exec (.cmdFrame 0x01 0xFF 0x51) s) (fun t => framesWritten t.events))
      = [some [[0x51, 0x01, 0xFF, 0x51]], some [], some []] ∧
    ¬((0x01 : Byte) = cfg.cmdLenField ∧ (0x52 : Byte) = cfg.cmdMarker + 0x01 + 0xFF) := by decide

theorem witness_QueryFollowsItsFiveSteps :
    ((opened [reads v1]).isOpen = true ∧ (opened [reads v1]).nextDraw.writeOk = true ∧
      (opened [reads v1]).nextDraw.read = .other v1 []) ∧
    ((fresh [⟨true, true, [0x51], [0x03], .queued⟩]).nextDraw.openOk = true ∧
      (fresh [⟨true, true, [0x51], [0x03], .queued⟩]).nextDraw.read = .queued) ∧
    ((fresh [⟨false, true, [], [], .queued⟩]).isOpen = false ∧
      (fresh [⟨false, true, [], [], .queued⟩]).nextDraw.openOk = false) ∧
    (opened [⟨true, false, [], [], .queued⟩]).nextDraw.writeOk = false ∧
    ((opened [⟨true, true, [], [], .error [0x7A]⟩]).nextDraw.writeOk = true ∧
      (opened [⟨true, true, [], [], .error [0x7A]⟩]).nextDraw.read = .error [0x7A]) := by decide

theorem witness_QueryWritesAndReadsAtMostOnce :
    after (exec (.query 0x81) (opened [reads v1])) State.events
      = some ([.opened 20, .wrote [0x51, 0x01, 0x81, 0xD3], .waited 100] ++ .read v1 :: [.returned (some 0x20)]) := by decide

theorem witness_TransportErrorsLookLikeFramingErrors :
    ((fresh [⟨false, true, [], [], .queued⟩]).isOpen = false ∧
      (fresh [⟨false, true, [], [], .queued⟩]).nextDraw.openOk = false) ∧
    (opened [⟨true, false, [], [], .queued⟩]).nextDraw.writeOk = false ∧
    (opened [⟨true, true, [], [], .error []⟩]).nextDraw.read = .error [] ∧
    ((reads []).openOk = true ∧ (reads []).writeOk = true ∧ (reads []).read = .other [] [] ∧
      (validate cfg []).valid = false) := by decide

/-- P1 to P5 of 43_register_exchange.md R166, for the value 0x20. -/
theorem witness_QueryReturnsTheModulesValueUnderTheContract :
    (opened [⟨true, true, [], v1, .queued⟩]).isOpen = true ∧ (opened [⟨true, true, [], v1, .queued⟩]).nextDraw.writeOk = true ∧
    (opened [⟨true, true, [], v1, .queued⟩]).rxQueue = [] ∧ (opened [⟨true, true, [], v1, .queued⟩]).nextDraw.early = [] ∧
    (opened [⟨true, true, [], v1, .queued⟩]).nextDraw.late = idealResponse cfg 0x20 ∧
    (opened [⟨true, true, [], v1, .queued⟩]).nextDraw.read = .queued := by decide

/-- Program P4, and the case of twelve bytes that its end names. -/
theorem witness_ALateResponseAnswersTheNextQuery :
    (opened [⟨true, true, [], [], .queued⟩, ⟨true, true, v1, [], .queued⟩]).env
      = [⟨true, true, [], [], .queued⟩, ⟨true, true, idealResponse cfg 0x20, [], .queued⟩] ∧
    (opened [⟨true, true, [], [], .queued⟩, ⟨true, true, v1, idealResponse cfg 0x0C, .queued⟩]).env
      = [⟨true, true, [], [], .queued⟩,
          ⟨true, true, idealResponse cfg 0x20, [0x51, 0x03, 0x06, 0x00, 0x0C, 0x66], .queued⟩] ∧
    (opened []).isOpen = true ∧ (opened []).rxQueue = [] := by decide

theorem witness_OpenOpensAClosedTransport :
    (opened []).isOpen = true ∧ (fresh []).isOpen = false ∧ (fresh [reads []]).nextDraw.openOk = true ∧
    (fresh [⟨false, true, [], [], .queued⟩]).nextDraw.openOk = false := by decide

theorem witness_CloseClosesTheTransport : (opened []).isOpen = true ∧ (fresh []).isOpen = false := by decide

theorem witness_OnlyCloseClosesAndOnlyOpenAndQueryOpen :
    ((opened []).isOpen = true ∧ after (exec .closeT (opened [])) State.isOpen = some false) ∧
    ((fresh [reads v1]).isOpen = false ∧ after (exec (.query 0x81) (fresh [reads v1])) State.isOpen = some true) := by decide

theorem witness_OnlySetSettleChangesTheDelay :
    after (step (issuing (.cfg 1 250) (fresh []))) (fun t => decide (t.tSettle ≠ (fresh []).tSettle)) = some true := by decide

theorem witness_OperationsThatLeaveTheCaptureAlone :
    (∃ t, exec .validate (holding v1) = .next t) ∧ (∃ t, exec (.encode 0x81) (holding v1) = .next t) ∧
    (∃ t, exec .openT (holding v1) = .next t) ∧ (∃ t, exec .closeT (holding v1) = .next t) ∧
    (∃ t, exec (.setSettle 1) (holding v1) = .next t) ∧ ∃ t, exec .getSettle (holding v1) = .next t :=
  ⟨⟨_, rfl⟩, ⟨_, rfl⟩, ⟨_, rfl⟩, ⟨_, rfl⟩, ⟨_, rfl⟩, _, rfl⟩

/-- A cycle of humidity and status whose status register reads 0x01. -/
theorem witness_StatusGatesTheCycleAndAbsenceItsChannel :
    (readCycle addr ⟨true, false, false, false⟩
      (opened [reads v1, reads [0x51, 0x03, 0x06, 0x00, 0x0C, 0x66], reads [0x51, 0x03, 0x06, 0x00, 0x01, 0x5B]])).1.status
      ≠ some cfg.statusRegOk := by decide

/-- Three exchanges whose opens and writes succeed, the second of which reads nothing: the placeholder. -/
theorem witness_IdentifyReadsThreeRegistersInOrder :
    (∀ k < 3, ((opened [reads v1, reads [], reads v1]).drawAt k).openOk = true ∧
      ((opened [reads v1, reads [], reads v1]).drawAt k).writeOk = true) ∧
    resultsReturned (identify addr (opened [reads v1, reads [], reads v1])).2.events = [some 0x20, none, some 0x20] ∧
    (identify addr (opened [reads v1, reads [], reads v1])).1 = ['?', '?', '?'] ∧
    (identify addr (opened [reads v1, reads v1, reads v1])).1 = deviceType 0x20 0x20 0x20 := by decide

/-- A cycle of humidity: three exchanges whose opens and writes succeed, and a status register that reads 0x20. -/
theorem witness_SampleQueriesTheStatusRegisterLast :
    (∀ k < 3, ((opened [reads v1, reads v1, reads v1]).drawAt k).openOk = true ∧
      ((opened [reads v1, reads v1, reads v1]).drawAt k).writeOk = true) ∧
    resultsReturned (sample addr ⟨true, false, false, false⟩ (opened [reads v1, reads v1, reads v1])).2.events
      = [some 0x20, some 0x20] ++ [some 0x20] ∧
    some (0x20 : Byte) ≠ some cfg.statusRegOk := by decide

/-- 49_environment_consumers.md R204: the bitmask 0x09 has humidity and CO2. -/
theorem witness_FirstSampleQueriesTheIndicatedChannels :
    (∀ k < 10, ((opened (reads [0x51, 0x03, 0x06, 0x00, 0x09, 0x63] :: List.replicate 9 (reads v1))).drawAt k).openOk = true ∧
      ((opened (reads [0x51, 0x03, 0x06, 0x00, 0x09, 0x63] :: List.replicate 9 (reads v1))).drawAt k).writeOk = true) ∧
    framesWritten (firstSample .probed ⟨.airVelocity, .co2⟩ addr
        (opened (reads [0x51, 0x03, 0x06, 0x00, 0x09, 0x63] :: List.replicate 9 (reads v1)))).2.events
      = [0x31, 0x81, 0x91, 0xE1, 0xF1, 0x71].map (commandFrame cfg) := by decide

end Sys2Proof.Tests
end

section
/-! Reset (spec/10_state.md R39). -/

namespace Sys2Proof.Machine

/-- An empty capture fails rule 1, the length, so its outputs are absent with the filler payload (R27, R130). -/
theorem outputs_empty {c : Config} (hc : c.SpecSizes) :
    outputs c Capture.empty = some { result := none, valid := false, payload := 0x00, fail := 1 } := by
  have hlen : ([] : List Byte).length ≠ c.rspFrameBytes := by simp [hc.1]
  rw [outputs_of_holds hc Capture.holds_empty, validate_of_length_ne c hlen]
  rfl

/-- Settles O1: the fields are those of `State.resetWith`, and the outputs are those of the empty capture. -/
theorem resetLeavesTheValuesOfTheResetTable : Obligations.ResetLeavesTheValuesOfTheResetTable := by
  refine ⟨rfl, fun c q hc => ⟨?cnt, ?buf, ?outputs, ?answer, ?isOpen, ?tSettle, ?cfg, ?rxQueue⟩⟩
  case cnt => exact Capture.empty_cnt
  case buf => exact fun i => Capture.empty_buf i.val i.isLt
  case outputs => exact outputs_empty hc
  case answer => exact State.resetWith_answer c q
  case isOpen => exact State.resetWith_isOpen c q
  case tSettle => exact State.resetWith_tSettle c q
  case cfg => exact State.resetWith_cfg c q
  case rxQueue => exact State.resetWith_rxQueue c q

end Sys2Proof.Machine
end

section
/-! The host operation words by `OPSEL`, and the step on a word that decodes to nothing (spec/30_encoding.md R88, R90). -/

namespace Sys2Proof.Machine

/-- The next input word is the head of the list of those that have come. -/
theorem fetch_of_host_cons {s : State} {w : InputWord} {rest : List InputWord} (h : s.host = w :: rest) :
    s.fetch = some (w, s.withHost rest) := by
  rw [State.fetch, h]

/-- A step on a word that decodes to nothing is `undecoded` of that word, taken off the list. -/
theorem step_of_decode_error {s : State} {w : InputWord} {rest : List InputWord} {e : DecodeError}
    (h : s.host = w :: rest) (hd : decode s.cfg w.port = .error e) : step s = undecoded e w (s.withHost rest) := by
  rw [← State.withHost_cfg s rest] at hd
  simp only [step, fetch_of_host_cons h, hd]

/-- `OPSEL = 111` is the reserved encoding, whatever the `OPERAND` bits are (R90). -/
theorem decodeHop_of_opsel_seven {w : BitVec 11} (h : opselOf w = 0b111#3) : decodeHop w = .error .reservedOpsel := by
  rw [hop_eq_append w, h, decodeHop_append]
  rfl

/-- Every `OPSEL` below 111 is an operation (R88). -/
theorem decodeHop_of_opsel_ne_seven {w : BitVec 11} (h : opselOf w ≠ 0b111#3) : ∃ i, decodeHop w = .ok i := by
  have hk : ∀ k : BitVec 3, k ≠ 0b111#3 → k = 0 ∨ k = 1 ∨ k = 2 ∨ k = 3 ∨ k = 4 ∨ k = 5 ∨ k = 6 := by decide
  rw [hop_eq_append w, decodeHop_append]
  rcases hk _ h with e | e | e | e | e | e | e <;> exact e ▸ ⟨_, rfl⟩

/-- Settles O9: an undecodable host word is refused by name, and the only `OPSEL` without an operation is 111. -/
theorem onlyOpselSevenIsRefused : Obligations.OnlyOpselSevenIsRefused := by
  constructor
  · intro s w rest hs hw
    have hd : decode s.cfg (InputWord.hop w).port = .error .reservedOpsel := decodeHop_of_opsel_seven hw
    rw [step_of_decode_error hs hd, undecoded]
  · exact fun _ _ hw => decodeHop_of_opsel_ne_seven hw

/-- Settles O8: each word is `OPSEL ‖ OPERAND`, and the decoder reads these two fields only. -/
theorem hopWordsDecodeByOpsel : Obligations.HopWordsDecodeByOpsel := by
  intro c x
  simp only [decode, decodeHop_append]
  exact ⟨rfl, rfl, rfl, rfl, rfl, rfl, rfl, rfl⟩

end Sys2Proof.Machine
end

section
/-! The checksum as a number (spec/40_checksum.md R110). -/

namespace Sys2Proof.Machine

/-- Read as a number, `sum8` keeps the exact sum's remainder and nothing of its carry (R110, R111). -/
@[simp] theorem sum8_toNat (s : List Byte) : (sum8 s).toNat = byteSum s % 256 := by
  rw [sum8_eq]
  exact BitVec.toNat_ofNat (byteSum s) 8

/-- Settles O17: the exact sum that `sum8` truncates is the sum of the bytes as numbers. -/
theorem checksumIsTheSumModulo256 : Obligations.ChecksumIsTheSumModulo256 := by
  intro s
  rw [sum8_toNat, byteSum]

end Sys2Proof.Machine
end

section
/-! The command encoder: the operation `ENCODE` and the frame it answers with (spec/41_command_encoder.md R120, R124). -/

namespace Sys2Proof.Machine

/-- `ENCODE` always completes, and its answer is the command frame (R120). -/
theorem exec_encode (a : Byte) (s : State) :
    exec (.encode a) s = .next (s.withAnswer (.frame (commandFrame s.cfg a))) := rfl

/-- `OPSEL = 011` is `ENCODE` at the address on `OPERAND` (R88). -/
theorem decode_hop_encode (c : Config) (a : Byte) : decode c (.hop (0b011#3 ++ a)) = .ok (.encode a) :=
  decodeHop_append 0b011#3 a

/-- A command frame is its first three bytes and their `sum8` (R81, R87). -/
theorem commandFrame_eq_sum8 {c : Config} (h : c.SpecSizes) (a : Byte) :
    commandFrame c a = [c.cmdMarker, c.cmdLenField, a, sum8 [c.cmdMarker, c.cmdLenField, a]] := by
  rw [commandFrame_eq h, sum8_three]

/-- Settles O31: the answer is the command frame, written out byte by byte, and the only field written is the answer. -/
theorem encodeReturnsTheCommandFrame : Obligations.EncodeReturnsTheCommandFrame := by
  intro s a hc
  refine ⟨decode_hop_encode s.cfg a, ?_⟩
  rw [exec_encode, commandFrame_eq hc, State.withAnswer]

/-- Settles O32: the frame is the command frame, whose byte 3 is the `sum8` of bytes 0 to 2. -/
theorem encodedFramesEndInTheirChecksum : Obligations.EncodedFramesEndInTheirChecksum := by
  intro s a hc
  refine ⟨commandFrame s.cfg a, exec_encode a s, ?_⟩
  rw [commandFrame_eq_sum8 hc]
  exact ⟨rfl, rfl⟩

end Sys2Proof.Machine
end

section
/-! The validation function: the six rules in order, and the ideal response (spec/42_response_validator.md R130, R135). -/

namespace Sys2Proof.Machine

/-- The sizes of R7 put into the rules: `validate` is the chain of R130, over a byte sequence of any length. -/
theorem validate_eq_sixRules {c : Config} (hc : c.SpecSizes) (s : List Byte) :
    validate c s =
      if s.length ≠ 6 then rejected 1
      else if s[0]? ≠ some c.marker then rejected 2
      else if s[1]? ≠ some c.rspLenField then rejected 3
      else if s[2]? ≠ some c.rspStatusOk then rejected 4
      else if s[3]? ≠ some c.rspReserved then rejected 5
      else if s[5]? ≠ some (sum8 (s.take 5)) then rejected 6
      else { valid := true, payload := s[4]?, fail := 0 } := by
  obtain ⟨hlen, hpayload, hcks, -, hmod⟩ := hc
  simp only [validate, structuralFailure, hlen, hpayload, hcks, frameChecksum_eq_sum8 hmod]
  split_ifs <;> rfl

/-- A capture is rejected under a number that is not 0, or accepted with byte 4 as its payload (R130, R132). -/
theorem validate_cases {c : Config} (hc : c.SpecSizes) (s : List Byte) :
    (∃ fail : FailCode, fail ≠ 0 ∧ validate c s = rejected fail) ∨
      validate c s = { valid := true, payload := s[4]?, fail := 0 } := by
  rw [validate_eq_sixRules hc]
  split_ifs
  case neg => exact .inr rfl
  all_goals exact .inl ⟨_, by decide, rfl⟩

/-- Settles O20: the code is read off the chain of rules; validity and payload off the two ways `validate` can end. -/
theorem validationFollowsTheSixRules : Obligations.ValidationFollowsTheSixRules := by
  intro c s hc
  refine ⟨?code, ?agree⟩
  case code =>
    rw [validate_eq_sixRules hc]
    simp only [apply_ite Validation.fail, rejected]
  case agree =>
    rcases validate_cases hc s with ⟨fail, hfail, h⟩ | h
    · simpa [h, rejected] using hfail
    · simp [h]

/-- A frame with the four fixed fields and the right checksum is valid, whatever its payload (R135). -/
theorem validate_ideal {c : Config} (hc : c.SpecSizes) (p : Byte) :
    validate c [c.marker, c.rspLenField, c.rspStatusOk, c.rspReserved, p,
        sum8 [c.marker, c.rspLenField, c.rspStatusOk, c.rspReserved, p]]
      = { valid := true, payload := some p, fail := 0 } := by
  simp [validate_six hc, sum8_five]

/-- Settles O23: encoding leaves the configuration alone, and the ideal response is valid under every configuration. -/
theorem idealResponseValidates : Obligations.IdealResponseValidates := by
  intro s a p hc
  refine ⟨_, exec_encode a s, ?_⟩
  rw [State.withAnswer_cfg]
  exact validate_ideal hc p

end Sys2Proof.Machine
end

section
/-! The byte-serial parser: `RX_CLEAR`, `RX_PUSH` and `VALIDATE` (spec/42_response_validator.md R140, R141, R143). -/

namespace Sys2Proof.Machine

/-- The byte sequence that the registers hold determines them (R23). -/
theorem Capture.eq_of_holds {c d : Capture} {cap : List Byte} (hc : c.Holds cap) (hd : d.Holds cap) : c = d := by
  obtain ⟨ccnt, cbuf⟩ := c
  obtain ⟨dcnt, dbuf⟩ := d
  obtain ⟨hccnt, hcbuf⟩ := hc
  obtain ⟨hdcnt, hdbuf⟩ := hd
  have hcnt : ccnt = dcnt := BitVec.eq_of_toNat_eq (hccnt.trans hdcnt.symm)
  have hbuf : cbuf = dbuf := Vector.ext fun i hi => (hcbuf ⟨i, hi⟩).trans (hdbuf ⟨i, hi⟩).symm
  rw [hcnt, hbuf]

/-- A push on a saturated capture changes nothing (R141). -/
theorem Capture.push_of_saturated {c : Capture} (h : c.cnt = 7) (b : Byte) : c.push b = c := by
  obtain ⟨cnt, buf⟩ := c
  obtain rfl : cnt = 7 := h
  rfl

/-- With a count other than 6 rule 1 fails, whatever the registers hold (R27, R143). -/
theorem outputs_of_cnt_ne_six {cfg : Config} (hc : cfg.SpecSizes) {c : Capture} (h : c.cnt ≠ 6) :
    outputs cfg c = some { result := none, valid := false, payload := 0x00, fail := 1 } := by
  have hne : c.cnt.toNat ≠ cfg.rspFrameBytes := by
    rw [hc.1]
    exact fun e => h (BitVec.eq_of_toNat_eq e)
  rw [outputs, if_pos hne]
  rfl

/-- `VALID` needs a count of 6 (R27, R40). -/
theorem cnt_eq_six_of_outputs_valid {cfg : Config} (hc : cfg.SpecSizes) {c : Capture} {v : Verdict}
    (h : outputs cfg c = some v) (hv : v.valid = true) : c.cnt = 6 := by
  by_contra hne
  rw [outputs_of_cnt_ne_six hc hne] at h
  cases h
  cases hv

/-- A count of 6 after a push is a count of 5 before it: saturation does not reach it (R141). -/
theorem Capture.cnt_eq_five_of_push {c : Capture} {b : Byte} (h : (c.push b).cnt = 6) : c.cnt = 5 := by
  have hmin : 6 = min (c.cnt.toNat + 1) 7 := by
    rw [← Capture.push_cnt c b, h]
    rfl
  exact BitVec.eq_of_toNat_eq (show c.cnt.toNat = 5 by omega)

/-- `RX_CLEAR` always completes, with the empty capture (R140). -/
theorem exec_rxClear (s : State) :
    exec .rxClear s = .next ((s.withCapture Capture.empty).withAnswer .done) := rfl

/-- `RX_PUSH` always completes, with the byte pushed (R141). -/
theorem exec_rxPush (b : Byte) (s : State) :
    exec (.rxPush b) s = .next ((s.withCapture (s.capture.push b)).withAnswer .done) := rfl

/-- `VALIDATE` answers with the outputs of the capture, where it has outputs (R143). -/
theorem exec_validate_of_outputs {s : State} {v : Verdict} (h : outputs s.cfg s.capture = some v) :
    exec .validate s = .next (s.withAnswer (.verdict v)) := by
  simp [exec, execValidate, reportVerdict, h]

/-- Settles O26: the capture is the empty one, which is the only one that holds the empty sequence. -/
theorem rxClearEmptiesTheCapture : Obligations.RxClearEmptiesTheCapture := by
  intro s x
  refine ⟨Capture.empty, ?word, exec_rxClear s, Capture.empty_cnt, ?buf, ?outputs, ?again⟩
  case word => exact decodeHop_append 0b000#3 x
  case buf => exact fun i => Capture.empty_buf i.val i.isLt
  case outputs => exact outputs_empty
  case again => exact fun h => Capture.eq_of_holds Capture.holds_empty h

/-- Settles O27: the capture is the pushed one, and only from a count of 5 does a push reach the 6 that `VALID` needs. -/
theorem rxPushAppendsOneByte : Obligations.RxPushAppendsOneByte := by
  intro s b
  refine ⟨s.capture.push b, ?word, exec_rxPush b s, ?cnt, ?buf, ?saturated, ?sixth⟩
  case word => exact decodeHop_append 0b001#3 b
  case cnt =>
    have hlt := s.capture.cnt.isLt
    rw [Capture.push_cnt]
    split_ifs <;> omega
  case buf =>
    intro i
    have hand : s.capture.cnt.toNat < 6 ∧ i.val = s.capture.cnt.toNat ↔ i.val = s.capture.cnt.toNat := by omega
    simp only [Capture.push_buf s.capture b i.val i.isLt, hand]
  case saturated => exact fun h => Capture.push_of_saturated h b
  case sixth => exact fun v hc hout hv => Capture.cnt_eq_five_of_push (cnt_eq_six_of_outputs_valid hc hout hv)

/-- Settles O28: `VALIDATE` answers the outputs, which a count other than 6, or the sequence held, determines. -/
theorem validateReportsTheVerdictOfTheCapture : Obligations.ValidateReportsTheVerdictOfTheCapture := by
  refine ⟨?word, ?notSix, ?holds⟩
  case word => exact fun _ x => decodeHop_append 0b010#3 x
  case notSix => exact fun _ hc hne => exec_validate_of_outputs (outputs_of_cnt_ne_six hc hne)
  case holds => exact fun _ _ hc hcap => exec_validate_of_outputs (outputs_of_holds hc hcap)

end Sys2Proof.Machine
end

section
/-! The settle delay on the configuration port, and the delays an exchange waits
(spec/43_register_exchange.md R160, R176, R177). -/

namespace Sys2Proof.Machine

/-- `GET_SETTLE` always completes, with `T_SETTLE` as its answer (R177). -/
theorem exec_getSettle (s : State) : exec .getSettle s = .next (s.withAnswer (.settle s.tSettle)) := rfl

/-- Settles O47: `CFGSEL` 0 is `GET_SETTLE`, and its answer is `T_SETTLE`. -/
theorem getSettleReturnsTheDelay : Obligations.GetSettleReturnsTheDelay :=
  fun s _ => ⟨rfl, exec_getSettle s⟩

/-- `SET_SETTLE` always completes, with `T_SETTLE` set (R176). -/
theorem exec_setSettle (d : Duration) (s : State) :
    exec (.setSettle d) s = .next ((s.withSettle d).withAnswer .done) := rfl

/-- `QUERY` always completes, with the exchange performed (R160, R162). -/
theorem exec_query (a : Byte) (s : State) : exec (.query a) s = .next (exchange a s) := rfl

/-- A list of operations whose first completes runs on from the state that leaves. -/
theorem execAll_cons_of_next {i : Instr} {s t : State} (h : exec i s = .next t) (is : List Instr) :
    execAll (i :: is) s = execAll is t := by
  simp only [execAll, h]

/-- A list of one operation that completes ends where the operation ends. -/
theorem execAll_singleton_of_next {i : Instr} {s t : State} (h : exec i s = .next t) : execAll [i] s = .next t := by
  rw [execAll_cons_of_next h, execAll]

/-- `ensure_open()` leaves `T_SETTLE` alone. -/
@[simp] theorem ensureOpen_tSettle (d : Draw) (s : State) : (ensureOpen d s).tSettle = s.tSettle := by
  rcases ensureOpen_cases d s with ⟨-, h⟩ | ⟨-, -, h⟩ | ⟨-, -, h⟩ <;> rw [h] <;> rfl

/-- `ensure_open()` adds no settle delay to the history: it pays `T_OPEN` or nothing (R170). -/
theorem ensureOpen_events_no_wait (d : Draw) (s : State) :
    ∃ new, (ensureOpen d s).events = s.events ++ new ∧ ∀ d', .waited d' ∉ new := by
  rcases ensureOpen_cases d s with ⟨-, h⟩ | ⟨-, -, h⟩ | ⟨-, -, h⟩
  · exact ⟨[], by simp [h], by simp⟩
  · exact ⟨[.opened s.cfg.tOpen], by simp [h], by simp⟩
  · exact ⟨[.transportFailed .openCall], by simp [h], by simp⟩

/-- Steps 4 and 5 of an exchange add no settle delay to the history (R160). -/
theorem readAndValidate_events_no_wait (d : Draw) (s : State) :
    ∃ new, (readAndValidate d s).events = s.events ++ new ∧ ∀ d', .waited d' ∉ new := by
  rcases readAvailable_cases d s with ⟨bytes, left, -, h⟩ | ⟨left, -, h⟩
  · exact ⟨[.read bytes, .returned (resultPort s.cfg (Capture.load bytes))], by simp [readAndValidate, h], by simp⟩
  · exact ⟨[.transportFailed .readCall, .returned none], by simp [readAndValidate, h], by simp⟩

/-- An exchange only adds to the history, and every settle delay it adds is `T_SETTLE` as it found it (R160 step 3). -/
theorem exchange_events_wait_tSettle (a : Byte) (s : State) :
    ∃ new, (exchange a s).events = s.events ++ new ∧ ∀ d', .waited d' ∈ new → d' = s.tSettle := by
  obtain ⟨opening, hopen, hno⟩ := ensureOpen_events_no_wait s.nextDraw s.takeDraw
  rw [State.takeDraw_events] at hopen
  rcases exchange_cases a s with ⟨t, rfl, -, h⟩ | ⟨t, rfl, -, hw, h⟩ | ⟨t, ht, -, hw, h⟩
  · exact ⟨opening ++ [.returned none], by simp [h, hopen], by simp [hno]⟩
  · exact ⟨opening ++ [.transportFailed .writeCall, .returned none], by simp [h, hopen, hw], by simp [hno]⟩
  · rw [← ht] at hopen
    have hsettle : t.tSettle = s.tSettle := by simp [ht]
    obtain ⟨reading, hread, hno'⟩ := readAndValidate_events_no_wait s.nextDraw
      (waitSettle s.nextDraw (writeFrame s.nextDraw (commandFrame t.cfg a) t))
    exact ⟨opening ++ .wrote (commandFrame t.cfg a) :: .waited s.tSettle :: reading,
      by simp [h, hread, hopen, hw, hsettle], by simp [hno, hno']⟩

/-- Settles O46: the exchange after `SET_SETTLE` starts from the state with `T_SETTLE` set, and waits no other delay. -/
theorem setSettleSetsTheDelay : Obligations.SetSettleSetsTheDelay := by
  intro s d
  refine ⟨rfl, exec_setSettle d s, fun a => ?next⟩
  obtain ⟨new, hevents, hwait⟩ := exchange_events_wait_tSettle a ((s.withSettle d).withAnswer .done)
  refine ⟨exchange a ((s.withSettle d).withAnswer .done), new, ?run, hevents, hwait⟩
  rw [execAll_cons_of_next (exec_setSettle d s)]
  exact execAll_singleton_of_next (exec_query a _)

end Sys2Proof.Machine
end

section
/-! One exchange as its consumers see it: it answers with a result, and it leaves the configuration alone
(spec/43_register_exchange.md R160, R162; spec/10_state.md R30). -/

namespace Sys2Proof.Machine

/-- `ensure_open()` leaves the configuration alone. -/
@[simp] theorem ensureOpen_cfg (d : Draw) (s : State) : (ensureOpen d s).cfg = s.cfg := by
  rcases ensureOpen_cases d s with ⟨-, h⟩ | ⟨-, -, h⟩ | ⟨-, -, h⟩ <;> rw [h] <;> rfl

/-- Steps 4 and 5 of an exchange leave the configuration alone. -/
@[simp] theorem readAndValidate_cfg (d : Draw) (s : State) : (readAndValidate d s).cfg = s.cfg := by
  rcases readAvailable_cases d s with ⟨bytes, left, -, h⟩ | ⟨left, -, h⟩ <;> simp [readAndValidate, h]

/-- Steps 4 and 5 of an exchange answer with a result, present or absent. -/
theorem readAndValidate_answer (d : Draw) (s : State) : ∃ r, (readAndValidate d s).answer = .result r := by
  rcases readAvailable_cases d s with ⟨bytes, left, -, h⟩ | ⟨left, -, h⟩ <;> simp [readAndValidate, h]

/-- An exchange leaves the configuration alone. -/
@[simp] theorem exchange_cfg (a : Byte) (s : State) : (exchange a s).cfg = s.cfg := by
  rcases exchange_cases a s with ⟨t, rfl, -, h⟩ | ⟨t, rfl, -, -, h⟩ | ⟨t, rfl, -, -, h⟩ <;> simp [h]

/-- However an exchange ends, it answers with a result, present or absent (R162, R163). -/
theorem exchange_answer (a : Byte) (s : State) : ∃ r, (exchange a s).answer = .result r := by
  rcases exchange_cases a s with ⟨t, -, -, h⟩ | ⟨t, -, -, -, h⟩ | ⟨t, -, -, -, h⟩
  · exact ⟨none, by simp [h]⟩
  · exact ⟨none, by simp [h]⟩
  · rw [h]
    exact readAndValidate_answer _ _

end Sys2Proof.Machine
end

section
/-! The consumers' queries: `probe()`, and the status register's gate over a sampling cycle
(spec/49_environment_consumers.md R195, R200, R204). -/

namespace Sys2Proof.Machine

/-- A register query is one exchange, with its result. -/
theorem queryRegister_of_answer {a : Byte} {s : State} {r : Option Byte} (h : (exchange a s).answer = .result r) :
    queryRegister a s = (r, exchange a s) := by
  simp only [queryRegister, h]

/-- A register query ends where its exchange ends. -/
@[simp] theorem queryRegister_snd (a : Byte) (s : State) : (queryRegister a s).2 = exchange a s := by
  obtain ⟨r, h⟩ := exchange_answer a s
  rw [queryRegister_of_answer h]

/-- A query leaves the configuration alone, whether or not its register is expected. -/
@[simp] theorem queryIf_cfg (expected : Bool) (a : Byte) (s : State) : (queryIf expected a s).2.cfg = s.cfg := by
  cases expected <;> simp [queryIf]

/-- A sampling cycle leaves the configuration alone. -/
@[simp] theorem readCycle_cfg (addr : AddressMap) (e : Expected) (s : State) : (readCycle addr e s).2.cfg = s.cfg := by
  simp [readCycle]

/-- An absent bitmask has the capabilities of the bitmask 0, that is none (R204). -/
theorem decodeCapabilities_eq_getD (r : Option Byte) :
    decodeCapabilities r = { humidity := (r.getD 0).getLsbD 0, temperature := (r.getD 0).getLsbD 1,
                             airVelocity := (r.getD 0).getLsbD 2, co2 := (r.getD 0).getLsbD 3 } := by
  cases r with
  | none => rfl
  | some b => rfl

/-- `probe()` is the exchange of the capability register, with its result decoded (R204). -/
theorem probe_of_answer {addr : AddressMap} {s : State} {r : Option Byte}
    (h : (exchange (addr.at_ .caps) s).answer = .result r) :
    probe addr s = (decodeCapabilities r, exchange (addr.at_ .caps) s) := by
  rw [probe, queryRegister_of_answer h]

/-- Settles O51: the query is the exchange that `probe()` makes, and its flags are the bits of that exchange's result. -/
theorem probeReadsTheCapabilityBits : Obligations.ProbeReadsTheCapabilityBits := by
  intro addr s
  obtain ⟨r, hr⟩ := exchange_answer (addr.at_ .caps) s
  refine ⟨exchange (addr.at_ .caps) s, r, exec_query _ s, hr, ?state, ?flags⟩
  case state => rw [probe_of_answer hr]
  case flags => rw [probe_of_answer hr, decodeCapabilities_eq_getD]

/-- A channel without its low byte is not a number (R197). -/
@[simp] theorem channel_none_low (f : Nat → Rat) (high : Option Byte) : channel f none high = none := rfl

/-- A channel without its high byte is not a number (R197). -/
@[simp] theorem channel_none_high (f : Nat → Rat) (low : Option Byte) : channel f low none = none := by
  cases low with
  | none => rfl
  | some b => rfl

/-- Where the status register was not read as OK, no channel has a value (R193, R201). -/
theorem decodeMeasurement_of_status_ne {c : Config} {b : CycleBytes} (h : b.status ≠ some c.statusRegOk) :
    decodeMeasurement c b = { humidity := none, temperature := none, value3 := none, value4 := none } :=
  if_pos h

/-- Where the status register was read as OK, each channel is decoded from its own two bytes (R195). -/
theorem decodeMeasurement_of_status_eq {c : Config} {b : CycleBytes} (h : b.status = some c.statusRegOk) :
    decodeMeasurement c b =
      { humidity := channel humidityOf b.humLo b.humHi
        temperature := channel temperatureOf b.tempLo b.tempHi
        value3 := channel genericOf b.val3Lo b.val3Hi
        value4 := channel genericOf b.val4Lo b.val4Hi } :=
  if_neg (not_not_intro h)

/-- Settles O50: the gate is on the configuration that the cycle leaves, which is the one it found; past the gate a channel
sees only its own two bytes. -/
theorem statusGatesTheCycleAndAbsenceItsChannel : Obligations.StatusGatesTheCycleAndAbsenceItsChannel := by
  refine ⟨fun addr e s hstatus => ?gate, fun c b => ?absence⟩
  case gate =>
    rw [← readCycle_cfg addr e s] at hstatus
    exact decodeMeasurement_of_status_ne hstatus
  case absence =>
    by_cases h : b.status = some c.statusRegOk
    · simp [decodeMeasurement_of_status_eq, h]
    · simp [decodeMeasurement_of_status_ne, h]

end Sys2Proof.Machine
end

section
/-! The failures of an exchange as its caller sees them (spec/60_exceptions.md R221, R222, R223). -/

namespace Sys2Proof.Machine

/-- A sequence that is not valid has no payload (R132). -/
theorem validate_payload_of_not_valid {c : Config} (hc : c.SpecSizes) {bytes : List Byte}
    (h : (validate c bytes).valid = false) : (validate c bytes).payload = none := by
  rcases validate_cases hc bytes with ⟨fail, -, hv⟩ | hv
  · rw [hv, rejected]
  · rw [hv] at h
    cases h

/-- After `ensure_open()` the transport is open where it was open before or the call succeeds (R170). -/
@[simp] theorem ensureOpen_isOpen (d : Draw) (s : State) : (ensureOpen d s).isOpen = (s.isOpen || d.openOk) := by
  rcases ensureOpen_cases d s with ⟨ho, h⟩ | ⟨-, hd, h⟩ | ⟨ho, hd, h⟩
  · simp [h, ho]
  · simp [h, hd]
  · simp [h, ho, hd]

/-- A failed read ends the exchange on the FAILED path (R160 step 4). -/
theorem readAndValidate_of_read_error {d : Draw} {left : List Byte} (h : d.read = .error left) (s : State) :
    readAndValidate d s = failExchange ((s.withQueue left).withEvent (.transportFailed .readCall)) := by
  simp [readAndValidate, readAvailable, h]

/-- The bytes that a read returns in place of the queue become the capture, whose `RESULT` is returned (R160 step 5). -/
theorem readAndValidate_of_read_other {d : Draw} {bytes left : List Byte} (h : d.read = .other bytes left) (s : State) :
    readAndValidate d s = returnResult (receive bytes ((s.withQueue left).withEvent (.read bytes))) := by
  simp [readAndValidate, readAvailable, h]

/-- A transport error at any of the three calls returns absent and leaves the capture empty (R163, R221). -/
theorem exchange_of_transportError {s : State} (a : Byte)
    (h : s.isOpen = false ∧ s.nextDraw.openOk = false ∨ s.nextDraw.writeOk = false ∨
      ∃ left, s.nextDraw.read = .error left) :
    (exchange a s).answer = .result none ∧ (exchange a s).capture = Capture.empty := by
  rcases exchange_cases a s with ⟨t, -, -, he⟩ | ⟨t, -, -, -, he⟩ | ⟨t, rfl, ho, hw, he⟩
  case inl => simp [he]
  case inr.inl => simp [he]
  case inr.inr =>
    rcases h with ⟨hclosed, hopen⟩ | hwrite | ⟨left, hread⟩
    · simp [hclosed, hopen] at ho
    · simp [hwrite] at hw
    · simp [he, readAndValidate_of_read_error hread]

/-- An exchange whose read returns bytes of the transport's own choosing returns their payload, and they become the
capture (R160, R173). -/
theorem exchange_of_read_other {s : State} (hc : s.cfg.SpecSizes) (a : Byte) {bytes left : List Byte}
    (hopen : s.nextDraw.openOk = true) (hwrite : s.nextDraw.writeOk = true) (hread : s.nextDraw.read = .other bytes left) :
    (exchange a s).answer = .result (validate s.cfg bytes).payload ∧ (exchange a s).capture = Capture.load bytes := by
  rcases exchange_cases a s with ⟨t, rfl, ho, -⟩ | ⟨t, -, -, hw, -⟩ | ⟨t, rfl, -, -, he⟩
  · simp [hopen] at ho
  · simp [hwrite] at hw
  · simp [he, readAndValidate_of_read_other hread, resultPort_load hc]

/-- Settles O39: a transport error returns absent by itself, an invalid read because it has no payload; a silent module's
read loads no byte into the empty capture. -/
theorem transportErrorsLookLikeFramingErrors : Obligations.TransportErrorsLookLikeFramingErrors := by
  intro s a bytes left d hc herr hopen hwrite hread hinvalid
  obtain ⟨hans, hcap⟩ := exchange_of_transportError a herr
  obtain ⟨hans', hcap'⟩ := exchange_of_read_other (s := { s with env := d :: s.env.tail }) hc a hopen hwrite hread
  rw [validate_payload_of_not_valid hc hinvalid] at hans'
  refine ⟨_, _, exec_query a s, exec_query a _, hans, hans', ?silent⟩
  rintro rfl
  exact hcap.trans hcap'.symm

end Sys2Proof.Machine
end

section
/-! What one exchange can do: its four ends, each with the whole state it leaves (spec/43_register_exchange.md R160, R163,
R167). -/

namespace Sys2Proof.Machine

/-- The state an exchange from `s` leaves: what it writes itself, and the draw it took. -/
def State.afterExchange (s : State) (capture : Capture) (isOpen : Bool) (queue : List Byte) (result : Option Byte)
    (new : List Event) : State :=
  { s with
    capture := capture
    isOpen := isOpen
    rxQueue := queue
    answer := .result result
    events := s.events ++ new
    env := s.env.tail
    drawIndex := s.drawIndex + 1 }

section
variable (s : State) (c : Capture) (o : Bool) (q : List Byte) (r : Option Byte) (es : List Event)

@[simp] theorem State.afterExchange_cfg : (s.afterExchange c o q r es).cfg = s.cfg := rfl
@[simp] theorem State.afterExchange_capture : (s.afterExchange c o q r es).capture = c := rfl
@[simp] theorem State.afterExchange_isOpen : (s.afterExchange c o q r es).isOpen = o := rfl
@[simp] theorem State.afterExchange_tSettle : (s.afterExchange c o q r es).tSettle = s.tSettle := rfl
@[simp] theorem State.afterExchange_rxQueue : (s.afterExchange c o q r es).rxQueue = q := rfl
@[simp] theorem State.afterExchange_answer : (s.afterExchange c o q r es).answer = .result r := rfl
@[simp] theorem State.afterExchange_events : (s.afterExchange c o q r es).events = s.events ++ es := rfl
@[simp] theorem State.afterExchange_host : (s.afterExchange c o q r es).host = s.host := rfl
@[simp] theorem State.afterExchange_env : (s.afterExchange c o q r es).env = s.env.tail := rfl
@[simp] theorem State.afterExchange_drawIndex : (s.afterExchange c o q r es).drawIndex = s.drawIndex + 1 := rfl

end

/-- The transport is open for an exchange from `s`: it was open, or the open succeeds (R160 step 1). -/
abbrev State.Opens (s : State) : Prop :=
  s.isOpen = true ∨ s.nextDraw.openOk = true

/-- What step 1 of a successful exchange adds to the history: the real open, if there is one (R170). -/
def State.opening (s : State) : List Event :=
  if s.isOpen then [] else [.opened s.cfg.tOpen]

/-- The read of an exchange from `s` returns `bytes` and leaves `left` in the queue (R161, R173). -/
abbrev State.Reads (s : State) (bytes left : List Byte) : Prop :=
  s.nextDraw.read = .other bytes left ∨
    s.nextDraw.read = .queued ∧ bytes = s.rxQueue ++ s.nextDraw.early ++ s.nextDraw.late ∧ left = []

/-- `RESULT` over the capture of `bytes` (R27). -/
abbrev resultOf (c : Config) (bytes : List Byte) : Option Byte :=
  resultPort c (Capture.load bytes)

/-- Two states with the same fields are the same. -/
theorem State.ext {s t : State} (cfg : s.cfg = t.cfg) (capture : s.capture = t.capture) (isOpen : s.isOpen = t.isOpen)
    (tSettle : s.tSettle = t.tSettle) (rxQueue : s.rxQueue = t.rxQueue) (answer : s.answer = t.answer)
    (events : s.events = t.events) (host : s.host = t.host) (env : s.env = t.env)
    (drawIndex : s.drawIndex = t.drawIndex) : s = t := by
  cases s
  cases t
  simp_all

section
variable (d : Draw) (s : State)

@[simp] theorem ensureOpen_capture : (ensureOpen d s).capture = s.capture := by
  rcases ensureOpen_cases d s with ⟨-, h⟩ | ⟨-, -, h⟩ | ⟨-, -, h⟩ <;> simp [h]

@[simp] theorem ensureOpen_rxQueue : (ensureOpen d s).rxQueue = s.rxQueue := by
  rcases ensureOpen_cases d s with ⟨-, h⟩ | ⟨-, -, h⟩ | ⟨-, -, h⟩ <;> simp [h]

@[simp] theorem ensureOpen_host : (ensureOpen d s).host = s.host := by
  rcases ensureOpen_cases d s with ⟨-, h⟩ | ⟨-, -, h⟩ | ⟨-, -, h⟩ <;> simp [h]

@[simp] theorem ensureOpen_env : (ensureOpen d s).env = s.env := by
  rcases ensureOpen_cases d s with ⟨-, h⟩ | ⟨-, -, h⟩ | ⟨-, -, h⟩ <;> simp [h]

@[simp] theorem ensureOpen_drawIndex : (ensureOpen d s).drawIndex = s.drawIndex := by
  rcases ensureOpen_cases d s with ⟨-, h⟩ | ⟨-, -, h⟩ | ⟨-, -, h⟩ <;> simp [h]

end

/-- The queue that a read returns becomes the capture, whose `RESULT` is returned, and is left empty (R160 step 5, R173). -/
theorem readAndValidate_of_read_queued {d : Draw} (h : d.read = .queued) (s : State) :
    readAndValidate d s = returnResult (receive s.rxQueue ((s.withQueue []).withEvent (.read s.rxQueue))) := by
  simp [readAndValidate, readAvailable, h]

/-- Where the transport opens, `OPEN` is 1 after `ensure_open()`, as `ensureOpen_isOpen` gives it. -/
theorem State.Opens.or_eq_true {s : State} (h : s.Opens) : (s.isOpen || s.nextDraw.openOk) = true :=
  (Bool.or_eq_true _ _).mpr h

/-- A successful `ensure_open()` adds to the history what `State.opening` says. -/
theorem State.Opens.ensureOpen_events {s : State} (h : s.Opens) :
    (ensureOpen s.nextDraw s.takeDraw).events = s.events ++ s.opening := by
  rcases ensureOpen_cases s.nextDraw s.takeDraw with ⟨hs, he⟩ | ⟨hs, -, he⟩ | ⟨hs, hd, -⟩
  all_goals rw [State.takeDraw_isOpen] at hs
  · simp [he, State.opening, hs]
  · simp [he, State.opening, hs]
  · simp [State.Opens, hs, hd] at h

/-- The open fails: FAILED from step 1. -/
theorem exchange_of_open_failed {s : State} (a : Byte) (hs : s.isOpen = false) (hd : s.nextDraw.openOk = false) :
    exchange a s = s.afterExchange Capture.empty false (s.rxQueue ++ s.nextDraw.early) none
      [.transportFailed .openCall, .returned none] := by
  have he : exchange a s = failExchange (ensureOpen s.nextDraw s.takeDraw) := by simp [exchange, hs, hd]
  have hevents : (ensureOpen s.nextDraw s.takeDraw).events = s.events ++ [.transportFailed .openCall] := by
    simp [ensureOpen, hs, hd]
  rw [he]
  apply State.ext <;> simp [hs, hd, hevents]

/-- The write fails: FAILED from step 2. -/
theorem exchange_of_write_failed {s : State} (a : Byte) (ho : s.Opens) (hw : s.nextDraw.writeOk = false) :
    exchange a s = s.afterExchange Capture.empty true (s.rxQueue ++ s.nextDraw.early) none
      (s.opening ++ [.transportFailed .writeCall, .returned none]) := by
  have he : exchange a s = failExchange
      (writeFrame s.nextDraw (commandFrame s.cfg a) (ensureOpen s.nextDraw s.takeDraw)) := by
    simp [exchange, ho.or_eq_true, hw]
  rw [he]
  apply State.ext <;> simp [ho.or_eq_true, ho.ensureOpen_events, hw]

/-- Where the open and the write succeed, the exchange is its read and its verdict (R160 steps 4 and 5) after them. -/
theorem exchange_of_written {s : State} (a : Byte) (ho : s.Opens) (hw : s.nextDraw.writeOk = true) :
    exchange a s = readAndValidate s.nextDraw (waitSettle s.nextDraw
      (writeFrame s.nextDraw (commandFrame s.cfg a) (ensureOpen s.nextDraw s.takeDraw))) := by
  simp [exchange, ho.or_eq_true, hw]

/-- The read fails: FAILED from step 4. -/
theorem exchange_of_read_failed {s : State} (a : Byte) (ho : s.Opens) (hw : s.nextDraw.writeOk = true) {left : List Byte}
    (hr : s.nextDraw.read = .error left) :
    exchange a s = s.afterExchange Capture.empty true left none
      (s.opening ++ [.wrote (commandFrame s.cfg a), .waited s.tSettle, .transportFailed .readCall, .returned none]) := by
  rw [exchange_of_written a ho hw, readAndValidate_of_read_error hr]
  apply State.ext <;> simp [ho.or_eq_true, ho.ensureOpen_events, hw]

/-- The read returns bytes: they become the capture, and `RESULT` is returned. -/
theorem exchange_of_read {s : State} (a : Byte) (ho : s.Opens) (hw : s.nextDraw.writeOk = true) {bytes left : List Byte}
    (hr : s.Reads bytes left) :
    exchange a s = s.afterExchange (Capture.load bytes) true left (resultOf s.cfg bytes)
      (s.opening ++ [.wrote (commandFrame s.cfg a), .waited s.tSettle, .read bytes,
        .returned (resultOf s.cfg bytes)]) := by
  rw [exchange_of_written a ho hw]
  rcases hr with hr | ⟨hr, rfl, rfl⟩
  · rw [readAndValidate_of_read_other hr]
    apply State.ext <;> simp [ho.or_eq_true, ho.ensureOpen_events, hw]
  · rw [readAndValidate_of_read_queued hr]
    apply State.ext <;> simp [ho.or_eq_true, ho.ensureOpen_events, hw]

/-- The four ends of an exchange at `a` from `s`, each with the state it leaves (R160, R163). -/
inductive ExchangeEnd (a : Byte) (s : State) : State → Prop where
  | openFailed (hs : s.isOpen = false) (hd : s.nextDraw.openOk = false) :
      ExchangeEnd a s (s.afterExchange Capture.empty false (s.rxQueue ++ s.nextDraw.early) none
        [.transportFailed .openCall, .returned none])
  | writeFailed (ho : s.Opens) (hw : s.nextDraw.writeOk = false) :
      ExchangeEnd a s (s.afterExchange Capture.empty true (s.rxQueue ++ s.nextDraw.early) none
        (s.opening ++ [.transportFailed .writeCall, .returned none]))
  | readFailed (ho : s.Opens) (hw : s.nextDraw.writeOk = true) (left : List Byte) (hr : s.nextDraw.read = .error left) :
      ExchangeEnd a s (s.afterExchange Capture.empty true left none
        (s.opening ++ [.wrote (commandFrame s.cfg a), .waited s.tSettle, .transportFailed .readCall, .returned none]))
  | validated (ho : s.Opens) (hw : s.nextDraw.writeOk = true) (bytes left : List Byte) (hr : s.Reads bytes left) :
      ExchangeEnd a s (s.afterExchange (Capture.load bytes) true left (resultOf s.cfg bytes)
        (s.opening ++ [.wrote (commandFrame s.cfg a), .waited s.tSettle, .read bytes,
          .returned (resultOf s.cfg bytes)]))

/-- A read either fails or returns bytes (R161, R173). -/
theorem State.reads_or_fails (s : State) :
    (∃ left, s.nextDraw.read = .error left) ∨ ∃ bytes left, s.Reads bytes left := by
  cases h : s.nextDraw.read with
  | queued => exact .inr ⟨_, _, .inr ⟨h, rfl, rfl⟩⟩
  | other bytes left => exact .inr ⟨bytes, left, .inl h⟩
  | error left => exact .inl ⟨left, rfl⟩

/-- Every exchange ends in one of the four ways. -/
theorem exchange_end (a : Byte) (s : State) : ExchangeEnd a s (exchange a s) := by
  by_cases ho : s.Opens
  · cases hw : s.nextDraw.writeOk with
    | false => exact exchange_of_write_failed a ho hw ▸ .writeFailed ho hw
    | true =>
      rcases s.reads_or_fails with ⟨left, hr⟩ | ⟨bytes, left, hr⟩
      · exact exchange_of_read_failed a ho hw hr ▸ .readFailed ho hw left hr
      · exact exchange_of_read a ho hw hr ▸ .validated ho hw bytes left hr
  · obtain ⟨hs, hd⟩ : s.isOpen = false ∧ s.nextDraw.openOk = false := by simpa [State.Opens] using ho
    exact exchange_of_open_failed a hs hd ▸ .openFailed hs hd

end Sys2Proof.Machine
end

section
/-! What an exchange adds to the history, and what it leaves alone (spec/43_register_exchange.md R160 to R164, R167). -/

namespace Sys2Proof.Machine

/-- Is this event a read of the transport? -/
def isRead : Event → Bool
  | .read _ => true
  | .opened _ => false
  | .closed _ => false
  | .wrote _ => false
  | .waited _ => false
  | .transportFailed _ => false
  | .returned _ => false

/-- A history without reads is in order. -/
theorem readsFollowWrites_of_no_read {es : List Event} (h : es.countP isRead = 0) : ReadsFollowWrites es := by
  rintro before bytes after rfl
  simp [isRead] at h

/-- A read after a write and a settle delay is in order. -/
theorem readsFollowWrites_read (frame : List Byte) (d : Duration) (bytes : List Byte) :
    ReadsFollowWrites [.wrote frame, .waited d, .read bytes] := by
  intro before bytes' after h
  have hbefore : before = [.wrote frame, .waited d] ∧ bytes' = bytes ∧ after = [] := by
    simpa [List.cons_eq_append_iff] using h
  exact ⟨[], frame, d, hbefore.1⟩

/-- The real open of an exchange writes no frame. -/
theorem State.opening_framesWritten (s : State) : framesWritten s.opening = [] := by
  cases hs : s.isOpen <;> simp [State.opening, hs, framesWritten, frameWritten]

/-- The real open of an exchange returns no result. -/
theorem State.opening_resultsReturned (s : State) : resultsReturned s.opening = [] := by
  cases hs : s.isOpen <;> simp [State.opening, hs, resultsReturned, resultReturned]

/-- The real open of an exchange is no read. -/
theorem State.opening_countP_isRead (s : State) : s.opening.countP isRead = 0 := by
  cases hs : s.isOpen <;> simp [State.opening, hs, isRead]

/-- After the real open of an exchange the transport is open. -/
theorem State.opening_foldl_openBit (s : State) : s.opening.foldl openBit s.isOpen = true := by
  cases hs : s.isOpen <;> simp [State.opening, hs, openBit]

/-- `new` is what happened between `s` and `t`: the history grew by it, `OPEN` changed as it says (R32), and its reads follow
its writes (R60). -/
structure Adds (s t : State) (new : List Event) : Prop where
  events : t.events = s.events ++ new
  isOpen : new.foldl openBit s.isOpen = t.isOpen
  reads : ReadsFollowWrites new

/-- What an exchange at `a` that leads from `s` to `t` and adds `new` to the history writes, reads and returns: its frame where
open and write succeed (R163, R164), at most one read (R162), and its result (R167). -/
structure ExchangeAdds (a : Byte) (s t : State) (new : List Event) : Prop extends Adds s t new where
  frames : framesWritten new = if s.Opens ∧ s.nextDraw.writeOk = true then [commandFrame s.cfg a] else []
  oneRead : new.countP isRead ≤ 1
  result : ∃ r, t.answer = .result r ∧ resultsReturned new = [r]

/-- An exchange whose transport opens adds what it does after the open. -/
theorem ExchangeAdds.of_opening {a : Byte} {s t : State} {rest : List Event} (events : t.events = s.events ++ (s.opening ++ rest))
    (isOpen : rest.foldl openBit true = t.isOpen) (reads : ReadsFollowWrites rest)
    (frames : framesWritten rest = if s.Opens ∧ s.nextDraw.writeOk = true then [commandFrame s.cfg a] else [])
    (oneRead : rest.countP isRead ≤ 1) (result : ∃ r, t.answer = .result r ∧ resultsReturned rest = [r]) :
    ExchangeAdds a s t (s.opening ++ rest) where
  events := events
  isOpen := by rw [List.foldl_append, State.opening_foldl_openBit, isOpen]
  reads := readsFollowWrites_append (readsFollowWrites_of_no_read s.opening_countP_isRead) reads
  frames := by rw [framesWritten_append, State.opening_framesWritten, List.nil_append, frames]
  oneRead := by rw [List.countP_append, State.opening_countP_isRead, Nat.zero_add]; exact oneRead
  result := by rw [resultsReturned_append, State.opening_resultsReturned, List.nil_append]; exact result

/-- Each end of an exchange adds to the history what an exchange may add. -/
theorem ExchangeEnd.adds {a : Byte} {s t : State} (h : ExchangeEnd a s t) : ∃ new, ExchangeAdds a s t new := by
  have hnone : ∀ {es}, List.countP isRead es = 0 → ReadsFollowWrites es := readsFollowWrites_of_no_read
  cases h with
  | openFailed hs hd =>
    have hclosed : ¬(s.Opens ∧ s.nextDraw.writeOk = true) := by simp [State.Opens, hs, hd]
    exact ⟨_, ⟨rfl, hs, hnone rfl⟩, (if_neg hclosed).symm, Nat.zero_le 1, none, rfl, rfl⟩
  | writeFailed ho hw =>
    have hunwritten : ¬(s.Opens ∧ s.nextDraw.writeOk = true) := by simp [hw]
    exact ⟨_, .of_opening rfl rfl (hnone rfl) (if_neg hunwritten).symm (Nat.zero_le 1) ⟨none, rfl, rfl⟩⟩
  | readFailed ho hw left hr =>
    exact ⟨_, .of_opening rfl rfl (hnone rfl) (if_pos ⟨ho, hw⟩).symm (Nat.zero_le 1) ⟨none, rfl, rfl⟩⟩
  | validated ho hw bytes left hr =>
    have hreads := readsFollowWrites_append (readsFollowWrites_read (commandFrame s.cfg a) s.tSettle bytes)
      (hnone (es := [.returned (resultOf s.cfg bytes)]) rfl)
    exact ⟨_, .of_opening rfl rfl hreads (if_pos ⟨ho, hw⟩).symm (Nat.le_refl 1) ⟨_, rfl, rfl⟩⟩

/-- Every end of an exchange leaves `T_SETTLE` alone (R31). -/
theorem ExchangeEnd.tSettle {a : Byte} {s t : State} (h : ExchangeEnd a s t) : t.tSettle = s.tSettle := by
  cases h <;> rfl

/-- Every end of an exchange leaves the host's list alone. -/
theorem ExchangeEnd.host {a : Byte} {s t : State} (h : ExchangeEnd a s t) : t.host = s.host := by
  cases h <;> rfl

/-- Every end of an exchange leaves well-formed capture registers (R40). -/
theorem ExchangeEnd.wf {a : Byte} {s t : State} (h : ExchangeEnd a s t) : t.capture.Wf := by
  cases h with
  | validated ho hw bytes left hr => exact Capture.wf_load bytes
  | openFailed | writeFailed | readFailed => exact Capture.wf_empty

/-- An exchange does not close an open transport (R165). -/
theorem ExchangeEnd.isOpen_of_isOpen {a : Byte} {s t : State} (h : ExchangeEnd a s t) (hs : s.isOpen = true) :
    t.isOpen = true := by
  cases h with
  | openFailed hclosed => simp [hs] at hclosed
  | writeFailed | readFailed | validated => rfl

/-- An exchange leaves `T_SETTLE` alone (R31). -/
@[simp] theorem exchange_tSettle (a : Byte) (s : State) : (exchange a s).tSettle = s.tSettle :=
  (exchange_end a s).tSettle

end Sys2Proof.Machine
end

section
/-! What an operation, and what a step, can do (spec/10_state.md sections 1 and 3). -/

namespace Sys2Proof.Machine

/-- What an operation that completes does from `s`, apart from its answer: nothing; write the capture registers; perform an
exchange; open or close the transport; set the delay. -/
inductive Effect (s : State) : Instr → State → Prop where
  | answered (i : Instr) (x : Answer) : Effect s i (s.withAnswer x)
  | captured (i : Instr) (c : Capture) (x : Answer)
      (hi : i = .rxClear ∨ (∃ b, i = .rxPush b) ∨ ∃ p k, i = .rspFrame p k) (hwf : s.capture.Wf → c.Wf) :
      Effect s i ((s.withCapture c).withAnswer x)
  | exchanged (i : Instr) (a : Byte) (hi : i = .query a ∨ ∃ len k, i = .cmdFrame len a k) : Effect s i (exchange a s)
  | opened (x : Answer) (hs : s.isOpen = false) :
      Effect s .openT ((ensureOpen s.nextDraw s.takeDraw).withAnswer x)
  | closed (hs : s.isOpen = true) :
      Effect s .closeT (((s.withOpen false).withEvent (.closed s.cfg.tClose)).withAnswer .done)
  | settled (d : Duration) : Effect s (.setSettle d) ((s.withSettle d).withAnswer .done)

/-- `CMD_FRAME` is the exchange at its address, or refused (log entry 8). -/
theorem exec_cmdFrame (len a k : Byte) (s : State) :
    exec (.cmdFrame len a k) s =
      if [s.cfg.cmdMarker, len, a, k] = commandFrame s.cfg a then .next (exchange a s)
      else .refused .notCommandFrame := rfl

/-- `RSP_FRAME` is its six bytes captured and validated (log entry 9). -/
theorem exec_rspFrame (p k : Byte) (s : State) :
    exec (.rspFrame p k) s = reportVerdict (receive (responseBytes s.cfg p k) s) := rfl

/-- `VALIDATE` reports the outputs of the capture (R143). -/
theorem exec_validate (s : State) : exec .validate s = reportVerdict s := rfl

/-- `OPEN` on an open transport does nothing (R170). -/
theorem exec_openT_of_open {s : State} (hs : s.isOpen = true) : exec .openT s = .next (s.withAnswer .done) := by
  simp [exec, execOpen, hs]

/-- `OPEN` on a closed transport is `ensure_open()`, with the transport's error reported (R170). -/
theorem exec_openT_of_closed {s : State} (hs : s.isOpen = false) :
    exec .openT s = .next ((ensureOpen s.nextDraw s.takeDraw).withAnswer
      (if s.nextDraw.openOk then .done else .transportError)) := by
  simp [exec, execOpen, hs]

/-- `CLOSE` on an open transport closes it and pays `T_CLOSE` (R171). -/
theorem exec_closeT_of_open {s : State} (hs : s.isOpen = true) :
    exec .closeT s = .next (((s.withOpen false).withEvent (.closed s.cfg.tClose)).withAnswer .done) := by
  simp [exec, execClose, hs]

/-- `CLOSE` on a closed transport does nothing (R171). -/
theorem exec_closeT_of_closed {s : State} (hs : s.isOpen = false) : exec .closeT s = .next (s.withAnswer .done) := by
  simp [exec, execClose, hs]

/-- An operation that completes has one of the six effects. -/
theorem exec_effect {i : Instr} {s t : State} (h : exec i s = .next t) : Effect s i t := by
  cases i with
  | cmdFrame len a k =>
    rw [exec_cmdFrame] at h
    split at h <;> cases h
    exact .exchanged _ a (.inr ⟨len, k, rfl⟩)
  | rspFrame p k =>
    obtain ⟨v, -, rfl⟩ := reportVerdict_next (exec_rspFrame p k s ▸ h)
    exact .captured _ _ _ (.inr (.inr ⟨p, k, rfl⟩)) fun _ => Capture.wf_load _
  | rxClear => cases h; exact .captured _ _ _ (.inl rfl) fun _ => Capture.wf_empty
  | rxPush b => cases h; exact .captured _ _ _ (.inr (.inl ⟨b, rfl⟩)) fun hwf => Capture.wf_push hwf b
  | validate =>
    obtain ⟨v, -, rfl⟩ := reportVerdict_next (exec_validate s ▸ h)
    exact .answered _ _
  | encode a => cases h; exact .answered _ _
  | query a => cases h; exact .exchanged _ a (.inl rfl)
  | openT =>
    cases hs : s.isOpen with
    | true => cases (exec_openT_of_open hs).symm.trans h; exact .answered _ _
    | false => cases (exec_openT_of_closed hs).symm.trans h; exact .opened _ hs
  | closeT =>
    cases hs : s.isOpen with
    | true => cases (exec_closeT_of_open hs).symm.trans h; exact .closed hs
    | false => cases (exec_closeT_of_closed hs).symm.trans h; exact .answered _ _
  | setSettle d => cases h; exact .settled d
  | getSettle => cases h; exact .answered _ _

end Sys2Proof.Machine
end

section
/-! The step: which word makes the block do what (spec/10_state.md R20, R26; spec/30_encoding.md R88, R89, R91, R93). -/

namespace Sys2Proof.Machine

/-- With no operation issued the block waits (R251). -/
theorem step_of_host_nil {s : State} (h : s.host = []) : step s = .next s := by
  simp only [step, State.fetch, h]

/-- A step performs the operation that the next word decodes to, on the state with that word taken off. -/
theorem step_of_decode_ok {s : State} {w : InputWord} {rest : List InputWord} {i : Instr} (h : s.host = w :: rest)
    (hd : decode s.cfg w.port = .ok i) : step s = exec i (s.withHost rest) := by
  rw [← State.withHost_cfg s rest] at hd
  simp only [step, fetch_of_host_cons h, hd]

/-- An operation on an input comes from the response wire as a response frame, or from one of the two host ports. -/
theorem decode_input_cases {c : Config} {w : InputWord} {i : Instr} (h : decode c w.port = .ok i) :
    (∃ bytes p k, w = .rf bytes ∧ i = .rspFrame p k) ∨ (∃ v, w = .hop v ∧ decodeHop v = .ok i) ∨
      ∃ sel d, w = .cfg sel d ∧ i = decodeCfg sel d := by
  cases w with
  | rf bytes =>
    obtain ⟨p, k, rfl⟩ := decodeResponse_rspFrame h
    exact .inl ⟨bytes, p, k, rfl, rfl⟩
  | hop v => exact .inr (.inl ⟨v, rfl, h⟩)
  | cfg sel d => exact .inr (.inr ⟨sel, d, rfl, (Except.ok.inj h).symm⟩)

/-- A configuration word is `SET_SETTLE` of the delay on `CFG_D` if `CFGSEL` is 1, and `GET_SETTLE` if it is 0 (R89). -/
theorem decodeCfg_cases (sel : BitVec 1) (d : Duration) :
    sel = 1#1 ∧ decodeCfg sel d = .setSettle d ∨ sel = 0#1 ∧ decodeCfg sel d = .getSettle := by
  have hsel : sel = 1#1 ∨ sel = 0#1 := by
    revert sel
    decide
  rcases hsel with rfl | rfl
  · exact .inl ⟨rfl, rfl⟩
  · exact .inr ⟨rfl, rfl⟩

/-- `QUERY`, `OPEN` and `CLOSE` come from the host's port with their `OPSEL`, and `SET_SETTLE` from the configuration port
(R88, R89). -/
theorem input_of_decode {c : Config} {w : InputWord} {i : Instr} (h : decode c w.port = .ok i) :
    (∀ a : Byte, i = .query a → w = .hop (0b100#3 ++ a)) ∧ (i = .openT → ∃ x : Byte, w = .hop (0b101#3 ++ x)) ∧
      (i = .closeT → ∃ x : Byte, w = .hop (0b110#3 ++ x)) ∧ ∀ d, i = .setSettle d → w = .cfg 1#1 d := by
  rcases decode_input_cases h with ⟨bytes, p, k, rfl, rfl⟩ | ⟨v, rfl, hv⟩ | ⟨sel, d, rfl, rfl⟩
  · simp
  · obtain ⟨x, hx⟩ := decodeHop_ok hv
    rcases hx with ⟨rfl, rfl⟩ | ⟨rfl, rfl⟩ | ⟨rfl, rfl⟩ | ⟨rfl, rfl⟩ | ⟨rfl, rfl⟩ | ⟨rfl, rfl⟩ | ⟨rfl, rfl⟩ <;> simp
  · rcases decodeCfg_cases sel d with ⟨rfl, hd⟩ | ⟨rfl, hd⟩ <;> simp [hd]

/-- A step on bytes on the response wire captures and validates them, whether or not they decode (R91; log entry 10). -/
theorem step_of_rf {s : State} (hc : s.cfg.SpecSizes) {bytes : List Byte} {rest : List InputWord}
    (h : s.host = .rf bytes :: rest) : step s = reportVerdict (receive bytes (s.withHost rest)) := by
  cases hd : decodeResponse s.cfg bytes with
  | error e => rw [step_of_decode_error h (e := e) hd, undecoded]
  | ok i =>
    obtain ⟨p, k, hbytes, rfl⟩ := decodeResponse_ok hc hd
    rw [step_of_decode_ok h hd, exec_rspFrame, State.withHost_cfg, ← hbytes]

/-- A step that completes waits, performs the operation that the next word decodes to, or captures bytes that are no response
frame. -/
theorem step_cases {s t : State} (h : step s = .next t) :
    (s.host = [] ∧ t = s) ∨
    (∃ w rest i, s.host = w :: rest ∧ decode s.cfg w.port = .ok i ∧ exec i (s.withHost rest) = .next t) ∨
    ∃ bytes rest v, s.host = .rf bytes :: rest ∧ t = (receive bytes (s.withHost rest)).withAnswer (.verdict v) := by
  cases hhost : s.host with
  | nil =>
    cases (step_of_host_nil hhost).symm.trans h
    exact .inl ⟨rfl, rfl⟩
  | cons w rest =>
    cases hd : decode s.cfg w.port with
    | ok i => exact .inr (.inl ⟨w, rest, i, rfl, hd, step_of_decode_ok hhost hd ▸ h⟩)
    | error e =>
      rw [step_of_decode_error hhost hd] at h
      cases w with
      | rf bytes =>
        obtain ⟨v, -, rfl⟩ := reportVerdict_next h
        exact .inr (.inr ⟨bytes, rest, v, rfl, rfl⟩)
      | hop v => cases h
      | cfg sel d => cases h

/-- Settles O13: the step's fetch takes the word off the list, and its decoder reads the same configuration. -/
theorem stepRunsTheDecodedOperation : Obligations.StepRunsTheDecodedOperation :=
  fun _ _ _ _ hhost hd => step_of_decode_ok hhost hd

/-- Settles O14: after reset no operation is issued either. -/
theorem stepWaitsForTheHost : Obligations.StepWaitsForTheHost :=
  ⟨fun _ h => step_of_host_nil h, step_of_host_nil rfl⟩

/-- Settles O16: the step is the capture and validation of the bytes, and a verdict that is not valid has no payload. -/
theorem anyCaptureOnTheResponseWireIsValidated : Obligations.AnyCaptureOnTheResponseWireIsValidated := by
  intro s bytes rest hc hhost
  refine ⟨Capture.load bytes, Capture.holds_load bytes, ?step, validate_payload_of_not_valid hc⟩
  rw [step_of_rf hc hhost, reportVerdict_receive (s := s.withHost rest) hc]
  rfl

end Sys2Proof.Machine
end

section
/-! What every step keeps (spec/10_state.md R30 to R32, R40; spec/43_register_exchange.md R175). -/

namespace Sys2Proof.Machine

/-- Nothing happened where history and `OPEN` are the same. -/
theorem Adds.none {s t : State} (events : t.events = s.events) (isOpen : t.isOpen = s.isOpen) : Adds s t [] where
  events := by rw [events, List.append_nil]
  isOpen := isOpen.symm
  reads := readsFollowWrites_of_no_read rfl

/-- What an operation adds to the history: no frame, or that of the exchange it performs (R175). -/
theorem Effect.adds {i : Instr} {s t : State} (h : Effect s i t) : ∃ new, Adds s t new ∧
    (framesWritten new = [] ∨
      ∃ a, (i = .query a ∨ ∃ len k, i = .cmdFrame len a k) ∧ framesWritten new = [commandFrame s.cfg a]) := by
  cases h with
  | answered | captured | settled => exact ⟨[], .none rfl rfl, .inl rfl⟩
  | exchanged i a hi =>
    obtain ⟨new, hnew⟩ := (exchange_end a s).adds
    have hframes := hnew.frames
    split at hframes
    · exact ⟨new, hnew.toAdds, .inr ⟨a, hi, hframes⟩⟩
    · exact ⟨new, hnew.toAdds, .inl hframes⟩
  | opened x hs =>
    cases hd : s.nextDraw.openOk with
    | true => exact ⟨[.opened s.cfg.tOpen], ⟨by simp [ensureOpen, hs, hd], by simp [hd, openBit],
        readsFollowWrites_of_no_read rfl⟩, .inl rfl⟩
    | false => exact ⟨[.transportFailed .openCall], ⟨by simp [ensureOpen, hs, hd], by simp [hs, hd, openBit],
        readsFollowWrites_of_no_read rfl⟩, .inl rfl⟩
  | closed hs => exact ⟨[.closed s.cfg.tClose], ⟨rfl, rfl, readsFollowWrites_of_no_read rfl⟩, .inl rfl⟩

/-- No operation writes the configuration (R30). -/
theorem Effect.cfg {i : Instr} {s t : State} (h : Effect s i t) : t.cfg = s.cfg := by
  cases h <;> simp

/-- Every operation keeps the capture registers well formed (R40). -/
theorem Effect.wf {i : Instr} {s t : State} (h : Effect s i t) (hwf : s.capture.Wf) : t.capture.Wf := by
  cases h with
  | answered | closed | settled => exact hwf
  | captured i c x hi hc => exact hc hwf
  | exchanged i a hi => exact (exchange_end a s).wf
  | opened x hs => simpa using hwf

/-- No operation but `SET_SETTLE` changes `T_SETTLE` (R31). -/
theorem Effect.tSettle {i : Instr} {s t : State} (h : Effect s i t) : t.tSettle = s.tSettle ∨ i = .setSettle t.tSettle := by
  cases h with
  | answered | captured | closed => exact .inl rfl
  | exchanged i a hi => exact .inl (exchange_tSettle a s)
  | opened x hs => simp
  | settled d => exact .inr rfl

/-- No operation but `CLOSE` closes the transport (R32). -/
theorem Effect.eq_closeT {i : Instr} {s t : State} (h : Effect s i t) (hs : s.isOpen = true) (ht : t.isOpen = false) :
    i = .closeT := by
  cases h with
  | answered | captured | settled => simp_all
  | exchanged i a hi => simp [(exchange_end a s).isOpen_of_isOpen hs] at ht
  | opened x hs' => simp_all
  | closed => rfl

/-- No operation but `OPEN` and the exchange opens the transport (R32, R165). -/
theorem Effect.opens {i : Instr} {s t : State} (h : Effect s i t) (hs : s.isOpen = false) (ht : t.isOpen = true) :
    i = .openT ∨ (∃ a, i = .query a) ∨ ∃ len a k, i = .cmdFrame len a k := by
  cases h with
  | answered | captured | settled => simp_all
  | exchanged i a hi =>
    rcases hi with rfl | ⟨len, k, rfl⟩
    · exact .inr (.inl ⟨a, rfl⟩)
    · exact .inr (.inr ⟨len, a, k, rfl⟩)
  | opened x hs' => exact .inl rfl
  | closed hs' => simp_all

/-- Whatever every operation makes of the state with the word taken off, and every capture of undecodable bytes too, a step
makes of the state. -/
theorem step_relates {R : State → State → Prop} (hrefl : ∀ s, R s s) (hhost : ∀ s t h, R (s.withHost h) t → R s t)
    (heffect : ∀ s t i, Effect s i t → R s t)
    (hcapture : ∀ s bytes x, R s ((receive bytes s).withAnswer x)) {s t : State} (h : step s = .next t) : R s t := by
  rcases step_cases h with ⟨-, rfl⟩ | ⟨w, rest, i, -, -, hexec⟩ | ⟨bytes, rest, v, -, rfl⟩
  · exact hrefl _
  · exact hhost _ _ rest (heffect _ _ i (exec_effect hexec))
  · exact hhost _ _ rest (hcapture _ bytes _)

/-- No step writes the configuration (R30). -/
theorem step_cfg {s t : State} (h : step s = .next t) : t.cfg = s.cfg :=
  step_relates (R := fun s t => t.cfg = s.cfg) (fun _ => rfl) (fun _ _ _ h => h) (fun _ _ _ h => h.cfg)
    (fun _ _ _ => rfl) h

/-- Every step keeps the capture registers well formed (R40). -/
theorem step_wf {s t : State} (h : step s = .next t) : s.capture.Wf → t.capture.Wf :=
  step_relates (R := fun s t => s.capture.Wf → t.capture.Wf) (fun _ => id) (fun _ _ _ h => h) (fun _ _ _ h => h.wf)
    (fun _ bytes _ _ => Capture.wf_load bytes) h

/-- What a step adds to the history: no frame, or that of the `QUERY` on the host's port (R93, R175). -/
theorem step_adds {s t : State} (h : step s = .next t) : ∃ new, Adds s t new ∧
    (framesWritten new = [] ∨ ∃ (a : Byte) (rest : List InputWord), s.host = .hop (0b100#3 ++ a) :: rest ∧
      framesWritten new = [commandFrame s.cfg a]) := by
  rcases step_cases h with ⟨-, rfl⟩ | ⟨w, rest, i, hhost, hd, hexec⟩ | ⟨bytes, rest, v, -, rfl⟩
  · exact ⟨[], .none rfl rfl, .inl rfl⟩
  · obtain ⟨new, ⟨hevents, hopen, hreads⟩, hframes⟩ := (exec_effect hexec).adds
    refine ⟨new, ⟨hevents, hopen, hreads⟩, ?_⟩
    rcases hframes with hframes | ⟨a, rfl | ⟨len, k, rfl⟩, hframes⟩
    · exact .inl hframes
    · rw [(input_of_decode hd).1 a rfl] at hhost
      exact .inr ⟨a, rest, hhost, hframes⟩
    · exact absurd hd (decode_input_ne_cmdFrame _ _ _ _ _)
  · exact ⟨[], .none rfl rfl, .inl rfl⟩

/-- Settles O3: the capture registers by `step_wf`; `OPEN` and the frames by what a step adds to the history. -/
theorem everyStepKeepsTheInvariant : Obligations.EveryStepKeepsTheInvariant := by
  intro s t ⟨hwf, hopen, hframes⟩ h
  obtain ⟨new, hnew, hwritten⟩ := step_adds h
  refine ⟨step_wf h hwf, ?isOpen, ?frames⟩
  case isOpen => rw [hnew.events, openAfter_append, ← hopen, hnew.isOpen]
  case frames =>
    intro f hf
    rw [hnew.events, framesWritten_append, List.mem_append] at hf
    rw [step_cfg h]
    rcases hf with hf | hf
    · exact hframes f hf
    · rcases hwritten with hnone | ⟨a, rest, -, hone⟩
      · simp [hnone] at hf
      · exact ⟨a, by simpa [hone] using hf⟩

/-- Settles O4: the reads that a step adds follow its own writes. -/
theorem everyStepReadsOnlyAfterWriteAndSettle : Obligations.EveryStepReadsOnlyAfterWriteAndSettle := by
  intro s t hs h
  obtain ⟨new, hnew, -⟩ := step_adds h
  rw [hnew.events]
  exact readsFollowWrites_append hs hnew.reads

/-- Settles O2: the empty capture is well formed, and the empty history has the transport closed and holds no event. -/
theorem resetMeetsTheInvariant : Obligations.ResetMeetsTheInvariant :=
  fun _ _ => ⟨⟨Capture.wf_empty, rfl, fun _ hf => absurd hf List.not_mem_nil⟩, readsFollowWrites_of_no_read rfl⟩

/-- Settles O5: the constants by evaluation; the configuration by `step_cfg`. -/
theorem noStepWritesTheProtocolConstants : Obligations.NoStepWritesTheProtocolConstants :=
  ⟨by decide, by decide, fun _ _ => step_cfg⟩

/-- Settles O15: of the operations only `CMD_FRAME` and `QUERY` write a frame, and only `QUERY` is an input. -/
theorem commandFramesAreOutputOnly : Obligations.CommandFramesAreOutputOnly := by
  refine ⟨decode_input_ne_cmdFrame, fun s t h => ?_⟩
  obtain ⟨new, hnew, hframes⟩ := step_adds h
  exact ⟨new, hnew.events, hframes⟩

/-- Settles O45: by the effects of the operations, and the words that the block's inputs hold for them. -/
theorem onlyCloseClosesAndOnlyOpenAndQueryOpen : Obligations.OnlyCloseClosesAndOnlyOpenAndQueryOpen := by
  refine ⟨fun i s t h => ⟨(exec_effect h).eq_closeT, (exec_effect h).opens⟩, fun s t h => ?_⟩
  rcases step_cases h with ⟨-, rfl⟩ | ⟨w, rest, i, hhost, hd, hexec⟩ | ⟨bytes, rest, v, -, rfl⟩
  case inr.inl =>
    obtain ⟨hquery, hopenT, hcloseT, -⟩ := input_of_decode hd
    refine ⟨fun hs ht => ?closes, fun hs ht => ?opens⟩
    case closes =>
      obtain ⟨x, rfl⟩ := hcloseT ((exec_effect hexec).eq_closeT hs ht)
      exact ⟨x, rest, hhost⟩
    case opens =>
      rcases (exec_effect hexec).opens hs ht with hi | ⟨a, hi⟩ | ⟨len, a, k, rfl⟩
      · obtain ⟨x, rfl⟩ := hopenT hi
        exact ⟨x, rest, .inl hhost⟩
      · obtain rfl := hquery a hi
        exact ⟨a, rest, .inr hhost⟩
      · exact absurd hd (decode_input_ne_cmdFrame _ _ _ _ _)
  all_goals exact ⟨fun hs ht => absurd (hs.symm.trans ht) (by decide), fun hs ht => absurd (hs.symm.trans ht) (by decide)⟩

/-- Settles O48: of the operations only `SET_SETTLE` changes the delay, and only the configuration port holds it. -/
theorem onlySetSettleChangesTheDelay : Obligations.OnlySetSettleChangesTheDelay := by
  intro s t h hne
  rcases step_cases h with ⟨-, rfl⟩ | ⟨w, rest, i, hhost, hd, hexec⟩ | ⟨bytes, rest, v, -, rfl⟩
  case inr.inl =>
    rcases (exec_effect hexec).tSettle with hsame | hi
    · exact absurd hsame hne
    · obtain ⟨-, -, -, hset⟩ := input_of_decode hd
      obtain rfl := hset _ hi
      exact ⟨_, rest, hhost, rfl⟩
  all_goals exact absurd rfl hne

/-- Settles O49: of the effects only a capture and an exchange write the capture registers, and neither is one of the six. -/
theorem operationsThatLeaveTheCaptureAlone : Obligations.OperationsThatLeaveTheCaptureAlone := by
  intro i s t h hi
  cases exec_effect h with
  | answered | closed | settled => rfl
  | captured i c x hc hwf => rcases hc with rfl | ⟨b, rfl⟩ | ⟨p, k, rfl⟩ <;> simp at hi
  | exchanged i a ha => rcases ha with rfl | ⟨len, k, rfl⟩ <;> simp at hi
  | opened x hs => simp

end Sys2Proof.Machine
end

section
/-! The encoder and the decoder (spec/30_encoding.md R80 to R92). -/

namespace Sys2Proof.Machine

/-- A host operation word decodes by its `OPSEL` (R88). -/
theorem decode_hopWord (c : Config) (k : BitVec 3) (x : Byte) : decode c (hopWord k x) = decodeHop (k ++ x) := rfl

/-- A command frame's four bytes decode exactly when length byte and checksum are right (R92). -/
theorem decodeCommand_frame {c : Config} (hc : c.SpecSizes) (a : Byte) :
    decodeCommand c [c.cmdMarker, c.cmdLenField, a, frameChecksum c [c.cmdMarker, c.cmdLenField, a]]
      = .ok (.cmdFrame c.cmdLenField a (frameChecksum c [c.cmdMarker, c.cmdLenField, a])) := by
  obtain ⟨-, -, -, hsize, -⟩ := hc
  simp [decodeCommand, hsize]

/-- Every structurally correct response frame decodes (R92). -/
theorem decodeResponse_responseBytes {c : Config} (hc : c.SpecSizes) (p k : Byte) :
    decodeResponse c (responseBytes c p k) = .ok (.rspFrame p k) := by
  obtain ⟨-, hpayload, hcks, -⟩ := id hc
  simp [decodeResponse, responseBytes_eq hc, structuralFailure_six hc, hpayload, hcks]

/-- Settles O6: the fields of a host word are read back by `decodeHop_append`; a well-formed command frame has the length
byte and the checksum that the decoder compares. -/
theorem decodeOfEncodeIsTheOperation : Obligations.DecodeOfEncodeIsTheOperation := by
  refine ⟨fun c i hc hwf => ?_, fun c p k hc => decodeResponse_responseBytes hc p k⟩
  cases i with
  | cmdFrame len a k =>
    obtain ⟨rfl, rfl⟩ : len = c.cmdLenField ∧ k = frameChecksum c [c.cmdMarker, len, a] := by
      simpa [Instr.wellFormed] using hwf
    exact decodeCommand_frame hc a
  | rspFrame p k => exact decodeResponse_responseBytes hc p k
  | rxClear | rxPush | validate | encode | query | openT | closeT =>
    rw [encode, decode_hopWord, decodeHop_append]
    rfl
  | setSettle d => rfl
  | getSettle => rfl

/-- Settles O7: by what the decoder accepts on each of the four ports. -/
theorem decodedOperationsFitTheirWords : Obligations.DecodedOperationsFitTheirWords := by
  intro c w i hc h
  cases w with
  | cf bytes =>
    obtain ⟨-, a, k, rfl, rfl, rfl⟩ := decodeCommand_ok h
    exact ⟨rfl, .inl (by simp [Instr.wellFormed]), fun _ => rfl⟩
  | rf bytes =>
    obtain ⟨p, k, rfl, rfl⟩ := decodeResponse_ok hc h
    exact ⟨rfl, .inr ⟨p, k, rfl⟩, fun _ => rfl⟩
  | hop v =>
    obtain ⟨x, hx⟩ := decodeHop_ok h
    rcases hx with ⟨rfl, -⟩ | ⟨rfl, -⟩ | ⟨rfl, -⟩ | ⟨rfl, -⟩ | ⟨rfl, -⟩ | ⟨rfl, -⟩ | ⟨rfl, -⟩
    all_goals exact ⟨rfl, .inl rfl, by simp [PortWord.format]⟩
  | cfg sel d =>
    obtain rfl : decodeCfg sel d = i := Except.ok.inj h
    rcases decodeCfg_cases sel d with ⟨-, hd⟩ | ⟨-, hd⟩
    all_goals exact hd ▸ ⟨rfl, .inl rfl, by simp [PortWord.format]⟩

/-- Settles O10: the decoder accepts the encoder's four bytes and no others. -/
theorem commandFramesAreExactlyTheEncodersOutputs : Obligations.CommandFramesAreExactlyTheEncodersOutputs := by
  intro c bytes hc
  have hsum (a : Byte) : frameChecksum c [c.cmdMarker, c.cmdLenField, a] = c.cmdMarker + c.cmdLenField + a := by
    rw [frameChecksum_eq_sum8 hc.2.2.2.2, sum8_three]
  constructor
  · rintro ⟨i, h⟩
    obtain ⟨-, a, k, rfl, rfl, -⟩ := decodeCommand_ok h
    exact ⟨a, by rw [hsum]⟩
  · rintro ⟨a, rfl⟩
    exact ⟨_, hsum a ▸ decodeCommand_frame hc a⟩

/-- The bytes of a 48-bit word are a response frame exactly when bits 47 to 16 are the four fixed fields; payload and checksum
are then bits 15 to 8 and 7 to 0 (R83, R85). -/
theorem frameBytes_eq_responseBytes_iff {w : Nat} (hw : w < 2 ^ 48) (p k : Byte) :
    frameBytes 6 w = responseBytes specConfig p k ↔
      w / 2 ^ 16 = 0x51030600 ∧ p = BitVec.ofNat 8 (w / 256) ∧ k = BitVec.ofNat 8 w := by
  have hbytes : responseBytes specConfig p k = [0x51, 0x03, 0x06, 0x00, p, k] := responseBytes_eq (by decide) p k
  have hfixed : w / 2 ^ 16 = 0x51030600 ↔
      w / 2 ^ 40 % 256 = 0x51 ∧ w / 2 ^ 32 % 256 = 0x03 ∧ w / 2 ^ 24 % 256 = 0x06 ∧ w / 2 ^ 16 % 256 = 0x00 := by
    omega
  rw [hbytes, hfixed]
  simp [frameBytes, ← BitVec.toNat_inj, Nat.shiftRight_eq_div_pow, eq_comm (a := p), eq_comm (a := k), and_assoc]

/-- A 48-bit word stands on the response wire. -/
theorem decodeTableWord_response {w : Nat} (hw : w < 2 ^ 48) :
    decodeTableWord 48 w = (decodeResponse specConfig (frameBytes 6 w)).toOption := by
  have hport : tableWord 48 w = some (.rf (frameBytes 6 w)) := by
    simp [tableWord, show w < 281474976710656 from hw]
  rw [decodeTableWord, hport]
  cases h : decodeResponse specConfig (frameBytes 6 w) <;> simp [decode, h, Except.toOption]

/-- Settles O11: the decoder takes exactly the response frames, and these are the words with the four fixed fields. -/
theorem responseWordsDecodeByMatchAndMask : Obligations.ResponseWordsDecodeByMatchAndMask := by
  intro w hw
  rw [decodeTableWord_response hw]
  constructor
  · intro hmatch
    rw [(frameBytes_eq_responseBytes_iff hw _ _).mpr ⟨hmatch, rfl, rfl⟩, decodeResponse_responseBytes (by decide)]
    rfl
  · intro hmatch
    cases h : decodeResponse specConfig (frameBytes 6 w) with
    | error e => rfl
    | ok i =>
      obtain ⟨p, k, hbytes, -⟩ := decodeResponse_ok (by decide) h
      exact absurd ((frameBytes_eq_responseBytes_iff hw p k).mp hbytes).1 hmatch

/-- Settles O12: thirteen words, each evaluated. -/
theorem workedWordsDecode : Obligations.WorkedWordsDecode := by
  unfold Obligations.WorkedWordsDecode
  decide

/-- Settles O33: byte 2 is the address, and byte 3 is the address plus a sum that does not depend on it. -/
theorem encodedFramesDetermineTheAddress : Obligations.EncodedFramesDetermineTheAddress := by
  intro c a b hc
  simp [commandFrame_eq hc]

end Sys2Proof.Machine
end

section
/-! The checksum as a sum of bytes (spec/40_checksum.md R111 to R114). -/

namespace Sys2Proof.Machine

/-- The checksum of a concatenation is the sum of the checksums (R113). -/
theorem sum8_append (s t : List Byte) : sum8 (s ++ t) = sum8 s + sum8 t := by
  simp [sum8_eq, byteSum, BitVec.ofNat_add]

/-- The checksum does not depend on the order of the bytes (R113). -/
theorem sum8_perm {s t : List Byte} (h : s.Perm t) : sum8 s = sum8 t := by
  rw [sum8_eq, sum8_eq, byteSum, byteSum, (h.map BitVec.toNat).sum_eq]

/-- An accumulator that wraps adds the checksum to what it holds (R111). -/
theorem foldl_add_eq_add_sum8 (acc : Byte) (s : List Byte) : s.foldl (· + ·) acc = acc + sum8 s := by
  induction s generalizing acc with
  | nil => exact (BitVec.add_zero acc).symm
  | cons b bs ih => rw [List.foldl_cons, ih, sum8_cons, BitVec.add_assoc]

/-- Settles O18: the accumulator starts at 0. -/
theorem checksumLaws : Obligations.ChecksumLaws := by
  refine ⟨fun s => ?accumulator, fun _ _ h => sum8_perm h, sum8_append⟩
  case accumulator => rw [foldl_add_eq_add_sum8, zero_add]

/-- Settles O19: the bytes around the changed one add the same to both sums. -/
theorem checksumSeesASingleByteChange : Obligations.ChecksumSeesASingleByteChange := by
  intro pre post b b' hne h
  simp only [sum8_append, sum8_cons, BitVec.add_right_inj, BitVec.add_left_inj] at h
  exact hne h

end Sys2Proof.Machine
end

section
/-! The accepted captures, and the outputs of the capture registers (spec/42_response_validator.md R130 to R134;
spec/40_checksum.md R115; spec/10_state.md R27). -/

namespace Sys2Proof.Machine

/-- The six bytes of the ideal response (R84, R135). -/
theorem idealResponse_eq {c : Config} (hc : c.SpecSizes) (p : Byte) :
    idealResponse c p = [c.marker, c.rspLenField, c.rspStatusOk, c.rspReserved, p,
      c.marker + c.rspLenField + c.rspStatusOk + c.rspReserved + p] := by
  rw [idealResponse, responseBytes_eq hc, responseChecksum_eq hc]

/-- Ideal responses differ in their payload. -/
theorem idealResponse_inj {c : Config} (hc : c.SpecSizes) {p q : Byte} :
    idealResponse c p = idealResponse c q ↔ p = q := by
  simp [idealResponse_eq hc]

/-- A capture is the ideal response of a payload, which it yields; or it is no ideal response, and is rejected under one of
the codes 1 to 6 (R130, R133). -/
theorem validate_accepts_or_rejects {c : Config} (hc : c.SpecSizes) (s : List Byte) :
    (∃ p, s = idealResponse c p ∧ validate c s = { valid := true, payload := some p, fail := 0 }) ∨
      ((∀ p, s ≠ idealResponse c p) ∧ ∃ fail : FailCode, fail ≠ 0 ∧ fail ≠ 7 ∧ validate c s = rejected fail) := by
  simp only [idealResponse_eq hc]
  by_cases l : s.length = 6
  · match s, l with
    | [b0, b1, b2, b3, b4, b5], _ =>
      rw [validate_six hc]
      split_ifs with h0 h1 h2 h3 h5
      case neg => simp_all
      all_goals exact .inr ⟨fun p h => by simp_all, _, by decide, by decide, rfl⟩
  · refine .inr ⟨fun p h => l (by simp [h]), 1, by decide, by decide, validate_of_length_ne c ?_⟩
    rwa [hc.1]

/-- The accepted captures are the ideal responses, each with its payload (R133). -/
theorem validate_payload_eq_some_iff {c : Config} (hc : c.SpecSizes) {s : List Byte} {p : Byte} :
    (validate c s).payload = some p ↔ s = idealResponse c p := by
  rcases validate_accepts_or_rejects hc s with ⟨q, rfl, h⟩ | ⟨hne, fail, -, -, h⟩
  · rw [h, idealResponse_inj hc, Option.some_inj]
  · simp [h, rejected, hne p]

/-- A capture is valid exactly when it is an ideal response (R133). -/
theorem validate_valid_iff {c : Config} (hc : c.SpecSizes) {s : List Byte} :
    (validate c s).valid = true ↔ ∃ p, s = idealResponse c p := by
  rcases validate_accepts_or_rejects hc s with ⟨q, rfl, h⟩ | ⟨hne, fail, -, -, h⟩
  · simp [h]
  · simp [h, rejected, hne]

/-- Two ideal responses with the same byte 4, or with the same byte 5, are the same. -/
theorem idealResponse_eq_of_getElem {c : Config} (hc : c.SpecSizes) {p q : Byte}
    (h : (idealResponse c p)[4]? = (idealResponse c q)[4]? ∨ (idealResponse c p)[5]? = (idealResponse c q)[5]?) :
    idealResponse c p = idealResponse c q := by
  simp only [idealResponse_eq hc] at h
  rw [idealResponse_inj hc]
  simpa using h

/-- Settles O21: under the normative constants the sum of the four fixed bytes is 0x5A. -/
theorem acceptedCapturesAreThe256Frames : Obligations.AcceptedCapturesAreThe256Frames := by
  intro s p
  rw [validate_payload_eq_some_iff (by decide), idealResponse_eq (by decide)]
  rfl

/-- Settles O22: two valid captures that differ in one byte have byte 4 or byte 5 in common, and so do not differ. -/
theorem singleByteMutationIsInvalid : Obligations.SingleByteMutationIsInvalid := by
  intro c pre post b b' hc hne hvalid
  by_contra hvalid'
  obtain ⟨p, hp⟩ := (validate_valid_iff hc).mp hvalid
  obtain ⟨q, hq⟩ := (validate_valid_iff hc).mp (Bool.not_eq_false _ ▸ hvalid')
  have hrest (i : Nat) (hi : i ≠ pre.length) : (pre ++ b :: post)[i]? = (pre ++ b' :: post)[i]? := by
    rcases Nat.lt_or_gt_of_ne hi with hlt | hgt
    · rw [List.getElem?_append_left hlt, List.getElem?_append_left hlt]
    · obtain ⟨k, rfl⟩ := Nat.exists_eq_add_of_lt hgt
      rw [List.getElem?_append_right hgt.le, List.getElem?_append_right hgt.le, Nat.add_assoc, Nat.add_sub_cancel_left]
      rfl
  have hcommon : idealResponse c p = idealResponse c q := by
    refine idealResponse_eq_of_getElem hc ?_
    rw [← hp, ← hq]
    by_cases hlen : 4 = pre.length
    · exact .inr (hrest 5 (by omega))
    · exact .inl (hrest 4 hlen)
  rw [← hp, ← hq] at hcommon
  simp [hne] at hcommon

/-- Settles O24: both captures are ideal responses, and their checksum bytes differ by as much as their payloads do. -/
theorem undetectedCorruptionsMovePayloadAndChecksumTogether :
    Obligations.UndetectedCorruptionsMovePayloadAndChecksumTogether := by
  intro c s s' p p' hc h
  obtain rfl := (validate_payload_eq_some_iff hc).mp h
  rw [validate_payload_eq_some_iff hc, idealResponse_eq hc, idealResponse_eq hc]
  constructor
  · rintro rfl
    refine ⟨_, _, _, _, _, p' - p, rfl, (add_sub_cancel p p').symm, ?_⟩
    rw [add_assoc _ p, add_sub_cancel]
  · rintro ⟨b0, b1, b2, b3, k, d, hs, rfl, rfl⟩
    simp only [List.cons.injEq, and_true, true_and] at hs
    obtain ⟨rfl, rfl, rfl, rfl, rfl⟩ := hs
    rw [add_assoc _ p]

/-- The outputs, where there are any, are those of a byte sequence (R27, R143). -/
theorem outputs_eq_validate {cfg : Config} (hc : cfg.SpecSizes) {c : Capture} {v : Verdict} (h : outputs cfg c = some v) :
    ∃ s, v = (validate cfg s).outputs := by
  by_cases h6 : c.cnt = 6
  · rw [outputs, hc.1, h6] at h
    obtain ⟨s, -, hv⟩ := Option.map_eq_some_iff.mp h
    exact ⟨s, hv.symm⟩
  · rw [outputs_of_cnt_ne_six hc h6] at h
    refine ⟨[], ?_⟩
    rw [validate_of_length_ne cfg (by simp [hc.1]), ← Option.some.inj h]
    rfl

/-- The outputs of a validation agree with each other (R27, R40). -/
theorem validate_outputs_consistent {c : Config} (hc : c.SpecSizes) (s : List Byte) : (validate c s).outputs.Consistent := by
  rcases validate_accepts_or_rejects hc s with ⟨p, -, h⟩ | ⟨-, fail, h0, h7, h⟩
  · simp [h, Validation.outputs, Verdict.Consistent]
  · simpa [h, Validation.outputs, Verdict.Consistent, rejected] using ⟨h0, h7⟩

/-- Settles O25: the outputs are those of a validation, and a count other than 6 fails rule 1. -/
theorem outputsAgreeWithEachOther : Obligations.OutputsAgreeWithEachOther := by
  intro cfg c v hc h
  refine ⟨?_, cnt_eq_six_of_outputs_valid hc h⟩
  obtain ⟨s, rfl⟩ := outputs_eq_validate hc h
  exact validate_outputs_consistent hc s

/-- Registers read together give no bytes exactly when one of them holds no value (R24). -/
theorem readAll_eq_none_iff (l : List (Option Byte)) : readAll l = none ↔ none ∈ l := by
  induction l with
  | nil => simp [readAll]
  | cons x xs ih =>
    cases x with
    | none => simp [readAll]
    | some b => simp [readAll, ih]

/-- The six capture registers give no bytes exactly when one of them holds no value (R24). -/
theorem Capture.bytes?_six_eq_none_iff (c : Capture) : c.bytes? 6 = none ↔ ∃ i : Fin 6, c.buf[i.val] = none := by
  rw [Capture.bytes?, List.take_of_length_le (by simp), readAll_eq_none_iff, Vector.mem_toList_iff, Vector.mem_iff_getElem]
  exact ⟨fun ⟨i, hi, h⟩ => ⟨⟨i, hi⟩, h⟩, fun ⟨i, h⟩ => ⟨i.val, i.isLt, h⟩⟩

/-- There are no outputs exactly where six bytes are counted and a register holds no value (R24). -/
theorem outputs_eq_none_iff {cfg : Config} (hc : cfg.SpecSizes) (c : Capture) :
    outputs cfg c = none ↔ c.cnt = 6 ∧ ∃ i : Fin 6, c.buf[i.val] = none := by
  by_cases h6 : c.cnt = 6
  · simp [outputs, hc.1, h6, ← Capture.bytes?_six_eq_none_iff]
  · rw [outputs_of_cnt_ne_six hc h6]
    exact ⟨nofun, fun h => absurd h.1 h6⟩

/-- `VALIDATE` faults exactly where there are no outputs. -/
theorem exec_validate_fault_iff (s : State) :
    exec .validate s = .fault .unwrittenCapture ↔ outputs s.cfg s.capture = none := by
  rw [exec_validate, reportVerdict]
  cases outputs s.cfg s.capture <;> simp

/-- Well-formed capture registers have outputs, under every configuration: those below the count hold values (R24, R40). -/
theorem Capture.Wf.outputs_isSome {c : Capture} (h : c.Wf) (cfg : Config) : ∃ v, outputs cfg c = some v := by
  rw [← Option.ne_none_iff_exists', outputs]
  split_ifs with hcnt
  · simp
  · have hbytes : c.bytes? cfg.rspFrameBytes ≠ none := by
      rw [Ne, Capture.bytes?, readAll_eq_none_iff, List.mem_take_iff_getElem]
      rintro ⟨i, hi, hnone⟩
      obtain ⟨hi6, hicnt⟩ : i < 6 ∧ i < c.cnt.toNat := by simp at hi; omega
      have hsome := h ⟨i, hi6⟩
      rw [decide_eq_true hicnt, Option.isSome_iff_ne_none] at hsome
      exact hsome (by simpa using hnone)
    simpa using hbytes

/-- Settles O29: the fault is the want of outputs, and well-formed registers have outputs. -/
theorem validateFaultsExactlyOnAnUnwrittenRegister : Obligations.ValidateFaultsExactlyOnAnUnwrittenRegister := by
  intro s hc
  rw [Ne, exec_validate_fault_iff]
  refine ⟨outputs_eq_none_iff hc s.capture, fun hwf => ?_⟩
  exact Option.ne_none_iff_exists'.mpr (hwf.outputs_isSome s.cfg)

/-- One `RX_PUSH` for each byte, and then the operations `is`: the capture is filled, and nothing else changes (R141). -/
theorem execAll_rxPush (bytes : List Byte) (is : List Instr) (c : Capture) (s : State) :
    execAll (bytes.map .rxPush ++ is) ((s.withCapture c).withAnswer .done)
      = execAll is ((s.withCapture (bytes.foldl Capture.push c)).withAnswer .done) := by
  induction bytes generalizing c with
  | nil => rfl
  | cons b bs ih =>
    rw [List.map_cons, List.cons_append, execAll_cons_of_next (exec_rxPush b _)]
    exact ih (c.push b)

/-- `CHECK` loads the bytes and validates them (R95). -/
theorem execAll_check (bytes : List Byte) (s : State) :
    execAll (check bytes) s = execAll [.validate] ((receive bytes s).withAnswer .done) := by
  rw [check, rxLoad, List.cons_append, execAll_cons_of_next (exec_rxClear s), execAll_rxPush]
  rfl

/-- Settles O30: the registers hold the bytes loaded, and so their outputs are those of `validate`. -/
theorem checkIsTheValidationFunction : Obligations.CheckIsTheValidationFunction := by
  intro s bytes hc
  refine ⟨Capture.load bytes, Capture.holds_load bytes, ?_⟩
  have hout : outputs s.cfg (Capture.load bytes) = some (validate s.cfg bytes).outputs := outputs_load hc bytes
  rw [execAll_check]
  exact execAll_singleton_of_next (exec_validate_of_outputs (s := (receive bytes s).withAnswer .done) hout)

/-- Settles O35: the six bytes pass rules 1 to 5, so that the checksum byte alone decides. -/
theorem rspFrameIsCapturedAndValidated : Obligations.RspFrameIsCapturedAndValidated := by
  intro s p k hc
  refine ⟨Capture.load _, Capture.holds_load _, ?_⟩
  rw [exec_rspFrame, responseBytes_eq hc, reportVerdict_receive hc, validate_six hc]
  by_cases hk : k = s.cfg.marker + s.cfg.rspLenField + s.cfg.rspStatusOk + s.cfg.rspReserved + p
  · simp [hk, Validation.outputs, receive, State.withAnswer, State.withCapture]
  · simp [hk, Validation.outputs, rejected, receive, State.withAnswer, State.withCapture]

end Sys2Proof.Machine
end

section
/-! The operations on the transport, and `QUERY` (spec/43_register_exchange.md sections 1 and 2). -/

namespace Sys2Proof.Machine

/-- Settles O43: `OPEN` on a closed transport is `ensure_open()`, whose draw decides. -/
theorem openOpensAClosedTransport : Obligations.OpenOpensAClosedTransport := by
  intro s
  refine ⟨fun hs => exec_openT_of_open hs, fun hs hd => ?succeeds, fun hs hd => ?fails⟩
  all_goals
    rw [exec_openT_of_closed hs, Host.Outcome.next.injEq]
    apply State.ext <;> simp [ensureOpen, hs, hd]

/-- Settles O44: by the two cases of `CLOSE`. -/
theorem closeClosesTheTransport : Obligations.CloseClosesTheTransport :=
  fun _ => ⟨fun hs => exec_closeT_of_open hs, fun hs => exec_closeT_of_closed hs⟩

/-- The frame that `CMD_FRAME` stands for is the command frame of its address exactly when length byte and checksum are
right (R92). -/
theorem cmdFrame_eq_commandFrame_iff {c : Config} (hc : c.SpecSizes) (len a k : Byte) :
    [c.cmdMarker, len, a, k] = commandFrame c a ↔ len = c.cmdLenField ∧ k = c.cmdMarker + len + a := by
  rw [commandFrame_eq hc]
  simp only [List.cons.injEq, and_true, true_and]
  exact and_congr_right fun h => by rw [h]

/-- Settles O34: both operations perform the exchange at the address, which writes its frame where open and write succeed. -/
theorem cmdFrameIsWrittenByItsExchange : Obligations.CmdFrameIsWrittenByItsExchange := by
  intro s len a k hc
  rw [exec_cmdFrame, ← cmdFrame_eq_commandFrame_iff hc]
  refine ⟨fun hframe => ?frame, fun hno => if_neg hno⟩
  obtain ⟨new, hnew⟩ := (exchange_end a s).adds
  refine ⟨exchange a s, new, if_pos hframe, exec_query a s, hnew.events, ?_⟩
  rw [hnew.frames, hframe]

/-- `RESULT` over a capture of bytes is the payload that `validate` gives (R27, R130). -/
theorem resultOf_eq {c : Config} (hc : c.SpecSizes) (bytes : List Byte) : resultOf c bytes = (validate c bytes).payload :=
  resultPort_load hc bytes

/-- Settles O36: one clause for each end of an exchange. -/
theorem queryFollowsItsFiveSteps : Obligations.QueryFollowsItsFiveSteps := by
  intro s a hc
  rw [exec_query, ← commandFrame_eq hc]
  refine ⟨fun bytes left ho hw hr => ?validated, fun hs hd => ?openFailed, fun ho hw => ?writeFailed,
    fun left ho hw hr => ?readFailed⟩
  case validated =>
    refine ⟨Capture.load bytes, Capture.holds_load bytes, ?_⟩
    rw [exchange_of_read a ho hw hr, resultOf_eq hc, List.append_assoc]
    rfl
  case openFailed =>
    refine ⟨Capture.empty, Capture.holds_empty, ?_⟩
    rw [exchange_of_open_failed a hs hd, ← hs]
    rfl
  case writeFailed =>
    refine ⟨Capture.empty, Capture.holds_empty, ?_⟩
    rw [exchange_of_write_failed a ho hw, List.append_assoc]
    rfl
  case readFailed =>
    refine ⟨Capture.empty, Capture.holds_empty, ?_⟩
    rw [exchange_of_read_failed a ho hw hr, List.append_assoc]
    rfl

/-- `RESULT` over the empty capture is absent, under every configuration (R27). -/
theorem resultPort_empty (c : Config) : resultPort c Capture.empty = none := by
  by_cases h : c.rspFrameBytes = 0
  · simp [resultPort, outputs, h, Capture.bytes?, readAll, validate, structuralFailure, Validation.outputs, rejected]
  · simp [resultPort, outputs, Ne.symm h, Validation.outputs, rejected]

/-- However an exchange ends, it returns the `RESULT` output of the capture it leaves (R160). -/
theorem ExchangeEnd.answer {a : Byte} {s t : State} (h : ExchangeEnd a s t) :
    t.answer = .result (resultPort t.cfg t.capture) := by
  cases h with
  | validated => rfl
  | openFailed | writeFailed | readFailed => exact congrArg Answer.result (resultPort_empty s.cfg).symm

/-- Settles O37: the capture is well formed and so has outputs, and the answer is their `RESULT`. -/
theorem queryAlwaysReturnsTheResultOutput : Obligations.QueryAlwaysReturnsTheResultOutput := by
  intro s a
  have hend := exchange_end a s
  obtain ⟨v, hv⟩ := hend.wf.outputs_isSome (exchange a s).cfg
  refine ⟨exchange a s, v, exec_query a s, hend.wf, hv, ?answer, exchange_cfg a s, hend.tSettle, hend.host⟩
  rw [hend.answer, resultPort, hv, Option.bind_some]

/-- Where at most one event is a read, there is no other before it and none after it. -/
theorem not_mem_read_of_countP_le_one {new before after : List Event} {bytes : List Byte} (h : new.countP isRead ≤ 1)
    (hnew : new = before ++ .read bytes :: after) :
    (∀ bytes', .read bytes' ∉ before) ∧ ∀ bytes', .read bytes' ∉ after := by
  rw [hnew, List.countP_append, List.countP_cons_of_pos rfl] at h
  have hbefore : before.countP isRead = 0 := by omega
  have hafter : after.countP isRead = 0 := by omega
  rw [List.countP_eq_zero] at hbefore hafter
  exact ⟨fun _ hmem => hbefore _ hmem rfl, fun _ hmem => hafter _ hmem rfl⟩

/-- Settles O38: by what an exchange adds to the history. -/
theorem queryWritesAndReadsAtMostOnce : Obligations.QueryWritesAndReadsAtMostOnce := by
  intro s a
  obtain ⟨new, hnew⟩ := (exchange_end a s).adds
  refine ⟨exchange a s, new, exec_query a s, hnew.events, ?frames, ?reads⟩
  case frames =>
    rw [hnew.frames]
    exact (ite_eq_or_eq _ _ _).symm
  case reads => exact fun _ _ _ h => not_mem_read_of_countP_le_one hnew.oneRead h

/-- The state with another past: another capture, last answer and history. -/
def State.withPast (s : State) (capture : Capture) (answer : Answer) (events : List Event) : State :=
  { s with capture := capture, answer := answer, events := events }

/-- An exchange comes to the same end whatever the past: no end depends on it. -/
theorem ExchangeEnd.forgets {a : Byte} {s t : State} (h : ExchangeEnd a s t) (cap : Capture) (ans : Answer)
    (es : List Event) : ∃ t', exchange a (s.withPast cap ans es) = t' ∧
      t.answer = t'.answer ∧ t.capture = t'.capture ∧ t.isOpen = t'.isOpen ∧ t.rxQueue = t'.rxQueue := by
  cases h with
  | openFailed hs hd => exact ⟨_, exchange_of_open_failed (s := s.withPast cap ans es) a hs hd, rfl, rfl, rfl, rfl⟩
  | writeFailed ho hw => exact ⟨_, exchange_of_write_failed (s := s.withPast cap ans es) a ho hw, rfl, rfl, rfl, rfl⟩
  | readFailed ho hw left hr => exact ⟨_, exchange_of_read_failed (s := s.withPast cap ans es) a ho hw hr, rfl, rfl, rfl, rfl⟩
  | validated ho hw bytes left hr => exact ⟨_, exchange_of_read (s := s.withPast cap ans es) a ho hw hr, rfl, rfl, rfl, rfl⟩

/-- Settles O40: the four fields compared depend on the configuration, `OPEN`, the queue and the draw alone. -/
theorem queryForgetsEarlierCapturesAndFailures : Obligations.QueryForgetsEarlierCapturesAndFailures := by
  intro s a cap ans es
  obtain ⟨t', rfl, hsame⟩ := (exchange_end a s).forgets cap ans es
  exact ⟨_, _, exec_query a s, exec_query a (s.withPast cap ans es), hsame⟩

/-- An exchange whose read takes the queue leaves it empty and returns the payload of what was in it (R160, R173). -/
theorem exchange_of_queued {s : State} (hc : s.cfg.SpecSizes) (a : Byte) (ho : s.Opens) (hw : s.nextDraw.writeOk = true)
    (hr : s.nextDraw.read = .queued) {bytes : List Byte} (hbytes : s.rxQueue ++ s.nextDraw.early ++ s.nextDraw.late = bytes) :
    (exchange a s).answer = .result (validate s.cfg bytes).payload ∧ (exchange a s).isOpen = true ∧
      (exchange a s).rxQueue = [] ∧ (exchange a s).env = s.env.tail := by
  rw [exchange_of_read a ho hw (.inr ⟨hr, hbytes.symm, rfl⟩), resultOf_eq hc]
  exact ⟨rfl, rfl, rfl, rfl⟩

/-- The payload of an ideal response (R135). -/
theorem validate_idealResponse_payload {c : Config} (hc : c.SpecSizes) (p : Byte) :
    (validate c (idealResponse c p)).payload = some p :=
  (validate_payload_eq_some_iff hc).mpr rfl

/-- Two responses in one capture are twelve bytes, which rule 1 rejects (R130). -/
theorem validate_two_responses_payload {c : Config} (hc : c.SpecSizes) (p q : Byte) :
    (validate c (idealResponse c p ++ idealResponse c q)).payload = none := by
  have hlen : (idealResponse c p ++ idealResponse c q).length ≠ c.rspFrameBytes := by
    simp [hc.1, idealResponse_eq hc]
  rw [validate_of_length_ne c hlen, rejected]

/-- Settles O41: the read takes exactly the ideal response for `p`. -/
theorem queryReturnsTheModulesValueUnderTheContract : Obligations.QueryReturnsTheModulesValueUnderTheContract := by
  intro s a p hc ho hw hqueue hearly hlate hr
  obtain ⟨hanswer, -⟩ := exchange_of_queued hc a ho hw hr (bytes := idealResponse s.cfg p) (by simp [hqueue, hearly, hlate])
  exact ⟨exchange a s, exec_query a s, by rw [hanswer, validate_idealResponse_payload hc]⟩

/-- Settles O42: the first exchange reads nothing and leaves the queue empty, so that the second reads the late response,
alone or before its own. -/
theorem aLateResponseAnswersTheNextQuery : Obligations.ALateResponseAnswersTheNextQuery := by
  intro s a b p q d1 d2 rest hc henv hs hqueue hw1 hearly1 hlate1 hr1 hw2 hearly2 hr2
  have hd1 : s.nextDraw = d1 := State.nextDraw_of_env henv
  obtain ⟨-, hopen, hqueue', henv'⟩ := exchange_of_queued hc a (.inl hs) (hd1 ▸ hw1) (hd1 ▸ hr1) rfl
  have hd2 : (exchange a s).nextDraw = d2 := State.nextDraw_of_env (henv'.trans (by rw [henv]; rfl))
  have hc' : (exchange a s).cfg.SpecSizes := by rwa [exchange_cfg]
  have hsecond {bytes : List Byte} (hbytes : idealResponse s.cfg p ++ d2.late = bytes) :
      ∃ t, execAll [.query a, .query b] s = .next t ∧ t.answer = .result (validate s.cfg bytes).payload ∧ t.rxQueue = [] := by
    obtain ⟨hanswer, -, hempty, -⟩ := exchange_of_queued hc' b (.inl hopen) (hd2 ▸ hw2) (hd2 ▸ hr2) (bytes := bytes)
      (by rw [hqueue', hd2, hearly2, List.nil_append, hbytes])
    rw [execAll_cons_of_next (exec_query a s), execAll_singleton_of_next (exec_query b _)]
    exact ⟨_, rfl, by rw [hanswer, exchange_cfg], hempty⟩
  constructor
  · intro hlate2
    rw [← validate_idealResponse_payload hc p]
    exact hsecond (by rw [hlate2, List.append_nil])
  · intro hlate2
    rw [← validate_two_responses_payload hc p q]
    exact hsecond (by rw [hlate2])

end Sys2Proof.Machine
end

section
/-! The consumers as sequences of queries: what any sequence adds to the history (spec/49_environment_consumers.md sections 1
to 4). -/

namespace Sys2Proof.Machine

/-- One query for each address, in order: their results, and the state after the last. -/
def queryEach : List Byte → State → List (Option Byte) × State
  | [], s => ([], s)
  | a :: as, s =>
    ((queryRegister a s).1 :: (queryEach as (queryRegister a s).2).1, (queryEach as (queryRegister a s).2).2)

/-- Queries at two lists of addresses are those at the first, and then those at the second. -/
theorem queryEach_append (as bs : List Byte) (s : State) :
    queryEach (as ++ bs) s =
      ((queryEach as s).1 ++ (queryEach bs (queryEach as s).2).1, (queryEach bs (queryEach as s).2).2) := by
  induction as generalizing s with
  | nil => rfl
  | cons a as ih => simp only [List.cons_append, queryEach, ih]

/-- There is one result for each query. -/
theorem queryEach_length (as : List Byte) (s : State) : (queryEach as s).1.length = as.length := by
  induction as generalizing s with
  | nil => rfl
  | cons a as ih => rw [queryEach, List.length_cons, List.length_cons, ih]

/-- An exchange takes one draw. -/
theorem ExchangeEnd.drawAt {a : Byte} {s t : State} (h : ExchangeEnd a s t) (k : Nat) : t.drawAt k = s.drawAt (k + 1) := by
  cases h <;> exact State.drawAt_succ rfl rfl k

/-- The first `n` operations from `s` on find a transport that opens and accepts what is written. -/
abbrev State.TransportOk (s : State) (n : Nat) : Prop :=
  ∀ k < n, (s.drawAt k).openOk = true ∧ (s.drawAt k).writeOk = true

/-- What queries at `as` that lead from `s` to `t` with these results do: they leave the configuration alone and take one draw
each, and they add to the history one result each and their frames in order, all of them where no open and no write fails. -/
structure QueriesAdd (as : List Byte) (s t : State) (results : List (Option Byte)) (new : List Event) : Prop where
  cfg : t.cfg = s.cfg
  draws : ∀ k, t.drawAt k = s.drawAt (k + as.length)
  events : t.events = s.events ++ new
  results : resultsReturned new = results
  frames : (framesWritten new).Sublist (as.map (commandFrame s.cfg))
  allFrames : s.TransportOk as.length → framesWritten new = as.map (commandFrame s.cfg)

/-- No query does nothing. -/
theorem QueriesAdd.nil (s : State) : QueriesAdd [] s s [] [] where
  cfg := rfl
  draws _ := rfl
  events := (List.append_nil _).symm
  results := rfl
  frames := List.Sublist.refl _
  allFrames _ := rfl

/-- Queries after queries add what they add after what those add. -/
theorem QueriesAdd.append {as bs : List Byte} {s t u : State} {rs rs' : List (Option Byte)} {new new' : List Event}
    (h : QueriesAdd as s t rs new) (h' : QueriesAdd bs t u rs' new') :
    QueriesAdd (as ++ bs) s u (rs ++ rs') (new ++ new') where
  cfg := h'.cfg.trans h.cfg
  draws k := by rw [h'.draws, h.draws, List.length_append, Nat.add_assoc, Nat.add_comm bs.length]
  events := by rw [h'.events, h.events, List.append_assoc]
  results := by rw [resultsReturned_append, h.results, h'.results]
  frames := by
    rw [framesWritten_append, List.map_append, ← h.cfg]
    exact (h.cfg ▸ h.frames).append h'.frames
  allFrames hok := by
    rw [List.length_append] at hok
    have hok' : t.TransportOk bs.length := fun k hk => h.draws k ▸ hok (k + as.length) (by omega)
    rw [framesWritten_append, List.map_append, h.allFrames fun k hk => hok k (by omega), h'.allFrames hok', h.cfg]

/-- A single query adds its result, and its frame where open and write succeed. -/
theorem queryRegister_adds (a : Byte) (s : State) :
    ∃ new, QueriesAdd [a] s (queryRegister a s).2 [(queryRegister a s).1] new := by
  obtain ⟨new, hnew⟩ := (exchange_end a s).adds
  obtain ⟨r, hanswer, hresults⟩ := hnew.result
  rw [queryRegister_of_answer hanswer]
  refine ⟨new, exchange_cfg a s, (exchange_end a s).drawAt, hnew.events, hresults, ?frames, fun hok => ?allFrames⟩
  case frames =>
    rw [hnew.frames]
    split
    · exact List.Sublist.refl _
    · exact List.nil_sublist _
  case allFrames =>
    obtain ⟨hopen, hwrite⟩ := s.nextDraw_eq_drawAt ▸ hok 0 Nat.one_pos
    rw [hnew.frames, if_pos ⟨.inr hopen, hwrite⟩]
    rfl

/-- A sequence of queries adds what its queries add, one after the other. -/
theorem queryEach_adds (as : List Byte) (s : State) :
    ∃ new, QueriesAdd as s (queryEach as s).2 (queryEach as s).1 new := by
  induction as generalizing s with
  | nil => exact ⟨[], .nil s⟩
  | cons a as ih =>
    obtain ⟨new, hnew⟩ := queryRegister_adds a s
    obtain ⟨new', hnew'⟩ := ih (queryRegister a s).2
    exact ⟨new ++ new', hnew.append hnew'⟩

end Sys2Proof.Machine
end

section
/-! `identify()` and the device identity (spec/49_environment_consumers.md R192, R205 to R207). -/

namespace Sys2Proof.Machine

/-- The addresses that `identify()` queries, in order (R205). -/
def identityAddresses (addr : AddressMap) : List Byte :=
  [addr.at_ .groupLo, addr.at_ .subgroup, addr.at_ .groupHi]

/-- `identify()` is its three queries, with their results decoded (R205). -/
theorem identify_eq_queryEach (addr : AddressMap) (s : State) : ∃ gl sg gh,
    (queryEach (identityAddresses addr) s).1 = [gl, sg, gh] ∧
      identify addr s = (decodeIdentity gl sg gh, (queryEach (identityAddresses addr) s).2) :=
  ⟨_, _, _, rfl, rfl⟩

/-- Where a result is absent, the identity is the placeholder (R205, R208). -/
theorem decodeIdentity_of_absent {gl sg gh : Option Byte} (h : gl = none ∨ sg = none ∨ gh = none) :
    decodeIdentity gl sg gh = ['?', '?', '?'] := by
  rcases h with rfl | rfl | rfl
  · rfl
  · cases gl <;> rfl
  · cases gl <;> cases sg <;> rfl

/-- What `identify()` adds to the history, with its text (R205). -/
theorem identify_adds (addr : AddressMap) (s : State) : ∃ new gl sg gh,
    QueriesAdd (identityAddresses addr) s (identify addr s).2 [gl, sg, gh] new ∧
      (identify addr s).1 = decodeIdentity gl sg gh := by
  obtain ⟨gl, sg, gh, hresults, hidentify⟩ := identify_eq_queryEach addr s
  obtain ⟨new, hnew⟩ := queryEach_adds (identityAddresses addr) s
  rw [hresults] at hnew
  exact ⟨new, gl, sg, gh, hidentify ▸ hnew, by rw [hidentify]⟩

/-- Settles O52: by what the three queries add; and `groupHighOf` sends 0x55, 0xFF and 0x00 to 0x00. -/
theorem identifyReadsThreeRegistersInOrder : Obligations.IdentifyReadsThreeRegistersInOrder := by
  refine ⟨fun addr s => ?_, fun gl sg => ⟨rfl, rfl⟩⟩
  obtain ⟨new, gl, sg, gh, ⟨-, -, hevents, hresults, hframes, hall⟩, htext⟩ := identify_adds addr s
  refine ⟨new, gl, sg, gh, hevents, hresults, hframes, hall, fun habsent => ?absent, ?present⟩
  case absent => rw [htext, decodeIdentity_of_absent habsent]
  case present =>
    rintro x y z rfl rfl rfl
    exact htext

/-- Settles O55: each access is a run of `identify()` from the state it finds. -/
theorem deviceIdentityIsRecomputedOnEveryAccess : Obligations.DeviceIdentityIsRecomputedOnEveryAccess := by
  intro format port addr s
  refine ⟨rfl, ?_⟩
  obtain ⟨new, gl, sg, gh, hnew, htext⟩ := identify_adds addr (deviceIdentity format port addr s).2
  refine ⟨_, new, gl, sg, gh, rfl, hnew.events, hnew.results, ?_⟩
  rw [← htext]
  rfl

end Sys2Proof.Machine
end

section
/-! `sample()` and the first cycle of a driver (spec/49_environment_consumers.md R194, R195, R204, R210). -/

namespace Sys2Proof.Machine

/-- The data registers of the expected channels, in the order of R195's pseudocode (log entry 17). -/
def dataRegisters (e : Expected) : List RegName :=
  (if e.humidity then [.humLo, .humHi] else []) ++ (if e.temperature then [.tempLo, .tempHi] else [])
    ++ (if e.value3 then [.val3Lo, .val3Hi] else []) ++ (if e.value4 then [.val4Lo, .val4Hi] else [])

/-- There are at most eight data registers. -/
theorem dataRegisters_length_le (e : Expected) : (dataRegisters e).length ≤ 8 := by
  simp only [dataRegisters, List.length_append]
  split_ifs <;> simp

/-- The queries of one channel end where those at its two registers, or at none, end. -/
theorem queryIf_pair_snd (expected : Bool) (addr : AddressMap) (low high : RegName) (s : State) :
    (queryIf expected (addr.at_ high) (queryIf expected (addr.at_ low) s).2).2
      = (queryEach ((if expected then [low, high] else []).map addr.at_) s).2 := by
  cases expected <;> rfl

/-- A cycle is the queries at its data registers and then the one at the status register, whose result it keeps (R194). -/
theorem readCycle_eq_queryEach (addr : AddressMap) (e : Expected) (s : State) :
    ((readCycle addr e s).1.status, (readCycle addr e s).2)
      = queryRegister (addr.at_ .status) (queryEach ((dataRegisters e).map addr.at_) s).2 := by
  simp only [readCycle, queryIf_pair_snd, dataRegisters, List.map_append, queryEach_append]

/-- What `sample()` adds to the history, with the results of its data registers and of the status register (R194, R195). -/
theorem sample_adds (addr : AddressMap) (e : Expected) (s : State) : ∃ new data status,
    QueriesAdd ((dataRegisters e ++ [RegName.status]).map addr.at_) s (sample addr e s).2 (data ++ [status]) new ∧
      data.length = (dataRegisters e).length ∧ status = (readCycle addr e s).1.status := by
  obtain ⟨new, hnew⟩ := queryEach_adds ((dataRegisters e ++ [RegName.status]).map addr.at_) s
  have hcycle := readCycle_eq_queryEach addr e s
  rw [List.map_append, queryEach_append] at hnew
  refine ⟨new, (queryEach ((dataRegisters e).map addr.at_) s).1, _, ?_, ?_, rfl⟩
  · simpa [queryEach, ← hcycle, sample] using hnew
  · rw [queryEach_length, List.length_map]

/-- Settles O53: by what the queries of a cycle add; the gate is that of O50. -/
theorem sampleQueriesTheStatusRegisterLast : Obligations.SampleQueriesTheStatusRegisterLast := by
  intro addr e s
  obtain ⟨new, data, status, ⟨-, -, hevents, hresults, hframes, hall⟩, hlength, hstatus⟩ := sample_adds addr e s
  simp only [List.map_map, List.length_map, List.length_append, List.length_singleton] at hframes hall
  refine ⟨new, data, status, hevents, hresults, hlength, hframes, hall, fun hgate => ?_⟩
  exact statusGatesTheCycleAndAbsenceItsChannel.1 addr e s (hstatus ▸ hgate)

/-- A quantity is present if its bit in the bitmask is 1 (R191, R204). -/
theorem decodeCapabilities_has (r : Option Byte) (q : OptionalQuantity) :
    (decodeCapabilities r).has q = (r.getD 0).getLsbD (if q = .airVelocity then 2 else 3) := by
  rw [decodeCapabilities_eq_getD]
  cases q <;> rfl

/-- Humidity is bit 0 of the bitmask (R204). -/
theorem decodeCapabilities_humidity (r : Option Byte) : (decodeCapabilities r).humidity = (r.getD 0).getLsbD 0 := by
  rw [decodeCapabilities_eq_getD]

/-- Temperature is bit 1 of the bitmask (R204). -/
theorem decodeCapabilities_temperature (r : Option Byte) :
    (decodeCapabilities r).temperature = (r.getD 0).getLsbD 1 := by
  rw [decodeCapabilities_eq_getD]

/-- The capability register, in the modes that probe (R194 step 2, R210). -/
def probeRegisters : SamplingMode → List RegName
  | .probed => [.caps]
  | .simple => [.caps]
  | .unprobed => []

/-- The registers that the first cycle of a driver queries, where the first result is `first`. -/
def firstRegisters (mode : SamplingMode) (g : GenericChannels) (first : Option Byte) : List RegName :=
  probeRegisters mode ++ (dataRegisters (expectedChannels g (decodeCapabilities first) mode) ++ [.status])

/-- The first cycle of a driver makes at most ten queries. -/
theorem firstRegisters_length_le (mode : SamplingMode) (g : GenericChannels) (first : Option Byte) :
    (firstRegisters mode g first).length ≤ 10 := by
  have hdata := dataRegisters_length_le (expectedChannels g (decodeCapabilities first) mode)
  have hprobe : (probeRegisters mode).length ≤ 1 := by cases mode <;> decide
  simp only [firstRegisters, List.length_append, List.length_singleton]
  omega

/-- A cycle after a probe adds the probe's query and the cycle's, whose channels the probe's result decides (R194, R204). -/
theorem sample_after_probe_adds (g : GenericChannels) (mode : SamplingMode) (addr : AddressMap) (s : State) :
    ∃ new first rest,
      QueriesAdd ((.caps :: (dataRegisters (expectedChannels g (decodeCapabilities first) mode) ++ [.status])).map addr.at_) s
        (sampleFor mode g (probe addr s).1 addr (probe addr s).2).2 (first :: rest) new := by
  obtain ⟨new, hnew⟩ := queryRegister_adds (addr.at_ .caps) s
  obtain ⟨new', data, status, hnew', -⟩ := sample_adds addr
    (expectedChannels g (decodeCapabilities (queryRegister (addr.at_ .caps) s).1) mode) (queryRegister (addr.at_ .caps) s).2
  exact ⟨new ++ new', _, data ++ [status], hnew.append hnew'⟩

/-- What the first cycle of a driver adds to the history (R194, R210). -/
theorem firstSample_adds (mode : SamplingMode) (g : GenericChannels) (addr : AddressMap) (s : State) :
    ∃ new first rest,
      QueriesAdd ((firstRegisters mode g first).map addr.at_) s (firstSample mode g addr s).2 (first :: rest) new := by
  cases mode with
  | probed => exact sample_after_probe_adds g .probed addr s
  | simple => exact sample_after_probe_adds g .simple addr s
  | unprobed =>
    obtain ⟨new, data, status, hnew, -⟩ := sample_adds addr (expectedChannels g (decodeCapabilities none) .unprobed) s
    obtain ⟨first, rest, hresults⟩ := List.exists_cons_of_ne_nil (List.concat_ne_nil status data)
    exact ⟨new, first, rest, hresults ▸ hnew⟩

/-- Settles O54: the queries are at most ten, and the registers queried are those of the bits of the first result. -/
theorem firstSampleQueriesTheIndicatedChannels : Obligations.FirstSampleQueriesTheIndicatedChannels := by
  intro mode g addr s hok
  obtain ⟨new, first, rest, ⟨-, -, hevents, hresults, -, hall⟩⟩ := firstSample_adds mode g addr s
  refine ⟨new, first, rest, hevents, hresults, ?_⟩
  have hlength := firstRegisters_length_le mode g first
  rw [hall fun k hk => hok k (by rw [List.length_map] at hk; omega), List.map_map]
  refine congrArg (List.map fun r => commandFrame s.cfg (addr.at_ r)) ?_
  cases mode <;>
    simp [firstRegisters, probeRegisters, dataRegisters, expectedChannels, decodeCapabilities_has,
      decodeCapabilities_humidity, decodeCapabilities_temperature]

end Sys2Proof.Machine
end
